-- ==== Sys2Proof/Word.lean ====
section
/-! DEFINITION. The word types of the block: bytes, raw samples, and banks of eight like things. -/

namespace Sys2Proof

/-- A byte: 8 bits, bit 0 the least significant (00_scope.md R31). -/
abbrev Byte := BitVec 8

/-- A raw sample of the ADC: a 16-bit pattern (30_encoding.md R72). -/
abbrev Raw := BitVec 16

/-- The index of a channel, a local pin or an expander device: 0 to 7 (30_encoding.md R65, R70). -/
abbrev Index := Fin 8

/-- Eight like things: one for each channel, pin or expander device. -/
abbrev Bank (α : Type) := Vector α 8

/-- The eight indices in rising order. -/
def indices : List Index := [0, 1, 2, 3, 4, 5, 6, 7]

end Sys2Proof
end

