-- ==== Sys2Proof/Config.lean ====
section
/-! DEFINITION. What an implementation fixes: the parameters of 00_scope.md R5 in one record, the board's
open values, and the free values. -/

namespace Sys2Proof

/-- The detection strategy, chosen once at boot for all channels (00_scope.md R8). -/
inductive Strategy where
  | rankSpread
  | zscore
  deriving DecidableEq, Repr, Inhabited

/-- The implementation parameters of 00_scope.md R5, one field a row of its table. -/
structure Config where
  /-- `N_CHANNELS`, 0 to 8. -/
  nChannels : Fin 9
  /-- `N_EXPANDERS`, 0 to 8. -/
  nExpanders : Fin 9
  /-- `ALT_ADDRESS`: the strap selected the alternate bus address. -/
  altAddress : Bool
  /-- `PRIMARY_ADDR`, used by no rule of the block. -/
  primaryAddr : BitVec 7
  /-- `ALT_ADDR`, used by no rule of the block. -/
  altAddr : BitVec 7
  /-- `FW_MAJOR`. -/
  fwMajor : Byte
  /-- `FW_MINOR`. -/
  fwMinor : Byte
  /-- `FW_PATCH`. -/
  fwPatch : Byte
  /-- `PWM_CAPABLE`: bit n says that address 0x30+n is a PWM register (00_scope.md R7). -/
  pwmCapable : Byte
  /-- `PERIOD_TOP`. -/
  periodTop : Nat
  /-- `PIN_RESET`: the level of the eight local pins at boot. -/
  pinReset : Byte
  /-- `STRATEGY`. -/
  strategy : Strategy
  /-- `W_RS`: the window of the rank/spread strategy. -/
  wRs : Nat
  /-- `SPREAD_THRESHOLD`. -/
  spreadThreshold : Int
  /-- `DELTA`. -/
  delta : Nat
  /-- `W_Z`: the window of the z-score strategy. -/
  wZ : Nat
  /-- `Z_THRESHOLD`. -/
  zThreshold : Rat
  /-- `Z_INFLUENCE`. -/
  zInfluence : Rat
  /-- `SAMPLE_SIGNED`: how a raw value is ordered (40_classifier.md R81). -/
  sampleSigned : Bool
  /-- `QUEUE_CAP`. -/
  queueCap : Nat
  deriving DecidableEq, Repr

namespace Config

/-- The constraints of the last column of 00_scope.md R5 that the fields' types do not carry. -/
def wf (c : Config) : Bool :=
  decide (0 < c.periodTop) && decide (1 ≤ c.wRs) && decide (c.delta ≤ c.wRs) && decide (1 ≤ c.wZ)
    && decide (0 ≤ c.zThreshold) && decide (0 ≤ c.zInfluence) && decide (c.zInfluence ≤ 1)
    && decide (1 ≤ c.queueCap)

/-- The bus address the board answers at (00_scope.md R5, R6); no rule of the block reads it. -/
def activeAddr (c : Config) : BitVec 7 :=
  if c.altAddress then c.altAddr else c.primaryAddr

/-! The OPEN parameters: the spec gives no value and "the model must not fix it" (00_scope.md R5).
Log entry 1. -/

/-- `N_CHANNELS` of the board, open. -/
opaque openChannels : Fin 9
/-- `N_EXPANDERS` of the board, open. -/
opaque openExpanders : Fin 9
/-- `ALT_ADDRESS` of the board, open. -/
opaque openAltAddress : Bool
/-- `PRIMARY_ADDR` of the board, open. -/
opaque openPrimaryAddr : BitVec 7
/-- `ALT_ADDR` of the board, open. -/
opaque openAltAddr : BitVec 7
/-- `FW_MAJOR` of the board, open. -/
opaque openFwMajor : BitVec 8
/-- `FW_MINOR` of the board, open. -/
opaque openFwMinor : BitVec 8
/-- `FW_PATCH` of the board, open. -/
opaque openFwPatch : BitVec 8
/-- `PWM_CAPABLE` of the board, open. -/
opaque openPwmCapable : BitVec 8
/-- `PERIOD_TOP` of the board less 1: any natural, so that `PERIOD_TOP` is any positive one. -/
opaque openPeriodTopPred : Nat
/-- `SAMPLE_SIGNED` of the board, open. -/
opaque openSampleSigned : Bool

/-- 15/2, the default of `Z_THRESHOLD`, in lowest terms. -/
def fifteenHalves : Rat := ⟨15, 2, by decide, by decide⟩
/-- 1/2, the default of `Z_INFLUENCE`, in lowest terms. -/
def oneHalf : Rat := ⟨1, 2, by decide, by decide⟩

/-- The board: every OPEN parameter open, every other one at its default of 00_scope.md R5. -/
def board : Config where
  nChannels := openChannels
  nExpanders := openExpanders
  altAddress := openAltAddress
  primaryAddr := openPrimaryAddr
  altAddr := openAltAddr
  fwMajor := openFwMajor
  fwMinor := openFwMinor
  fwPatch := openFwPatch
  pwmCapable := openPwmCapable
  periodTop := openPeriodTopPred + 1
  pinReset := 0x00
  strategy := .rankSpread
  wRs := 9
  spreadThreshold := 25
  delta := 3
  wZ := 20
  zThreshold := fifteenHalves
  zInfluence := oneHalf
  sampleSigned := openSampleSigned
  queueCap := 8

/-! The free values: what the spec leaves open at run time. Each is applied to the counter `draws` of
State, which every draw advances, so that nothing relates two draws. -/

/-- The value of `cur_addr` after boot (draw 0) and after each restart: "any value" (10_state.md R12,
93_implementation_defined.md U1). Log entry 6. -/
opaque freePointer : Nat → BitVec 8

/-- The `choose` of a send to a full output queue: true when a POP comes before the timeout, false when
the request is dropped (44_status_and_output.md R163, U7). Log entry 7. -/
opaque freeSendWaits : Nat → Bool

/-- The byte a host clocks at a position beyond the end of a reply (41_bus_events.md R117, U3): its first
argument numbers the reply, its second the position. Log entry 16. -/
opaque freePadding : Nat → Nat → BitVec 8

end Config

end Sys2Proof
end

