-- ==== Sys2Proof/Syntax.lean ====
section
/-! DEFINITION. The syntax: the events of the block and its instructions, one constructor of `Instr` for
every row of spec/opcode_table.json. -/

namespace Sys2Proof

/-- What the wait-for-event primitive returns: a kind and its payload (30_encoding.md R60 to R63). -/
inductive BusEvent where
  /-- Receive: the host writes; the payload bytes, byte 0 first. -/
  | receive (payload : List Byte)
  /-- Request: the host reads the previously addressed register. -/
  | request
  /-- Finish: the transaction ends. -/
  | finish
  deriving DecidableEq, Repr

/-- How many payload bytes an event carries (30_encoding.md R61 to R64). -/
def BusEvent.payloadLength : BusEvent → Nat
  | .receive payload => payload.length
  | .request => 0
  | .finish => 0

/-- The events that do not come from the bus (30_encoding.md R70). -/
inductive InternalEvent where
  | sample (c : Index) (x : Raw)
  | noSample (c : Index)
  | cycle
  | status (b : Byte)
  | pop
  | busErr
  | restart
  deriving DecidableEq, Repr

/-- An event of the block. -/
inductive Event where
  | bus (e : BusEvent)
  | internal (e : InternalEvent)
  deriving DecidableEq, Repr

/-- Which of the three SAMPLE rows of spec/opcode_table.json an event SAMPLE selects: their conditions are
on `STRATEGY` and on the fill of the z-score window (40_classifier.md R83). -/
inductive SampleRow where
  | rankSpread
  | zPriming
  | zFull
  deriving DecidableEq, Repr

/-- What the decoding of an event reads beside the event: the address pointer, which selects the row of a
Request (30_encoding.md R62, R66), and the SAMPLE row in force. -/
structure Context where
  curAddr : Byte
  sampleRow : SampleRow
  deriving DecidableEq, Repr

/-- Why an event has no instruction. -/
inductive Reject where
  /-- A Receive with more than two payload bytes (30_encoding.md R68). -/
  | payloadTooLong (length : Nat)
  deriving DecidableEq, Repr

/-- The instructions, in the order of spec/opcode_table.json. -/
inductive Instr where
  /-- RECV: Receive with no payload byte (R111). -/
  | recv
  /-- SETADDR: Receive with the register address only (R112). -/
  | setAddr (a : Byte)
  /-- WR_LOCAL: address 0x20 (R141). -/
  | wrLocal (v : Byte)
  /-- WR_EXP0: address 0x21 (R143). -/
  | wrExp0 (v : Byte)
  /-- WR_EXP1: address 0x22 (R143). -/
  | wrExp1 (v : Byte)
  /-- WR_EXP2: address 0x23 (R143). -/
  | wrExp2 (v : Byte)
  /-- WR_EXP3: address 0x24 (R143). -/
  | wrExp3 (v : Byte)
  /-- WR_EXP4: address 0x25 (R143). -/
  | wrExp4 (v : Byte)
  /-- WR_EXP5: address 0x26 (R143). -/
  | wrExp5 (v : Byte)
  /-- WR_EXP6: address 0x27 (R143). -/
  | wrExp6 (v : Byte)
  /-- WR_EXP7: address 0x28 (R143). -/
  | wrExp7 (v : Byte)
  /-- WR_PWM0: address 0x30 (R144). -/
  | wrPwm0 (v : Byte)
  /-- WR_PWM1: address 0x31 (R144). -/
  | wrPwm1 (v : Byte)
  /-- WR_PWM2: address 0x32 (R144). -/
  | wrPwm2 (v : Byte)
  /-- WR_PWM3: address 0x33 (R144). -/
  | wrPwm3 (v : Byte)
  /-- WR_PWM4: address 0x34 (R144). -/
  | wrPwm4 (v : Byte)
  /-- WR_PWM5: address 0x35 (R144). -/
  | wrPwm5 (v : Byte)
  /-- WR_PWM6: address 0x36 (R144). -/
  | wrPwm6 (v : Byte)
  /-- WR_PWM7: address 0x37 (R144). -/
  | wrPwm7 (v : Byte)
  /-- WR_IGNORED: any address with no W row (R147). -/
  | wrIgnored (a v : Byte)
  /-- RD_VER_MAJOR: Request with `cur_addr` = 0x00 (R126). -/
  | rdVerMajor
  /-- RD_VER_MINOR: Request with `cur_addr` = 0x01 (R127). -/
  | rdVerMinor
  /-- RD_VER_PATCH: Request with `cur_addr` = 0x02 (R128). -/
  | rdVerPatch
  /-- RD_NCHAN: Request with `cur_addr` = 0x03 (R129). -/
  | rdNchan
  /-- RD_NOUT: Request with `cur_addr` = 0x04 (R130). -/
  | rdNout
  /-- RD_STICKY: Request with `cur_addr` = 0x10 (R131). -/
  | rdSticky
  /-- RD_UNKNOWN: Request at any address with no R row (R132). -/
  | rdUnknown (a : Byte)
  /-- FIN: Finish (R115). -/
  | fin
  /-- SAMPLE.RS: a sample under the rank/spread strategy (R84). -/
  | sampleRs (c : Index) (x : Raw)
  /-- SAMPLE.Z.PRIME: a sample under the z-score strategy while its window fills (R87). -/
  | sampleZPrime (c : Index) (x : Raw)
  /-- SAMPLE.Z: a sample under the z-score strategy, window full (R88). -/
  | sampleZ (c : Index) (x : Raw)
  /-- NOSAMPLE: a conversion timeout (R91). -/
  | noSample (c : Index)
  /-- CYCLE: the end of a probe cycle (R92). -/
  | cycle
  /-- STATUS: the decode stage accepts a status byte (R161). -/
  | status (b : Byte)
  /-- POP: the dispatcher takes the head of the output queue (R165). -/
  | pop
  /-- BUSERR: the wait-for-event primitive fails (R180). -/
  | busErr
  /-- RESTART: the Supervisor makes the bridge listen (R181). -/
  | restart
  deriving DecidableEq, Repr

end Sys2Proof
end

