-- ==== Sys2Proof/Machine/State.lean ====
section
/-! DEFINITION. The state of the block as plain data, its stops, and its value after boot (10_state.md). -/

namespace Sys2Proof.Machine

/-- The message "{device index, 8-bit value}" (30_encoding.md R71). -/
structure OutputRequest where
  device : Index
  value : Byte
  deriving DecidableEq, Repr

/-- What outside hardware sees on a local pin (10_state.md R17): a level, or a PWM signal that is high for
`target` counts of each period. -/
inductive PinOutput where
  | level (high : Bool)
  | pwm (target : Nat)
  deriving DecidableEq, Repr

/-- A bus event as the front end hands it over: with `address`, the value `cur_addr` has at the hand-over,
after the event's own latch. A Request carries it as its register (30_encoding.md R62); a Receive that has an
address carries the address it latched (R64). -/
structure Handed where
  event : BusEvent
  address : Byte
  deriving DecidableEq, Repr

/-- What one agent, or the environment, does next. Log entries 2 and 3. -/
inductive Input where
  /-- The bus delivers an event; the front end latches its address and hands it over on `bus_chan`
  (41_bus_events.md R110, 30_encoding.md R64). -/
  | deliver (e : BusEvent)
  /-- The decode stage takes the head of `bus_chan` and runs it (41_bus_events.md R110). -/
  | decodeStage
  /-- An event that does not come from the bus (30_encoding.md R70). -/
  | internal (e : InternalEvent)
  deriving DecidableEq, Repr

/-- The state: everything 10_state.md gives the block, the parameters, and three fields of the model. -/
@[ext]
structure State where
  /-- The parameters of 00_scope.md R5; no rule writes them (10_state.md R18). -/
  cfg : Config
  /-- `cur_addr`, the register-address pointer, owned by the bus front end (R12). -/
  curAddr : Byte
  /-- `sticky` (R13). -/
  sticky : Byte
  /-- `last_raw` (R14). -/
  lastRaw : Byte
  /-- `pwm_mode[0..7]` (R15). -/
  pwmMode : Bank Bool
  /-- `pwm_duty[0..7]` (R16). -/
  pwmDuty : Bank Byte
  /-- `pin_level[0..7]`, bit i is pin i (R17). -/
  pinLevel : Byte
  /-- `win[c]`, oldest first (R19). -/
  win : Bank (List Raw)
  /-- `fwin[c]`, oldest first (R21). -/
  fwin : Bank (List Rat)
  /-- `active[c]` (R20). -/
  active : Bank Bool
  /-- `out_queue`, head first (R23). -/
  outQueue : List OutputRequest
  /-- `bus_chan`, head first (R24). -/
  busChan : List Handed
  /-- `status_pending` (R25). -/
  statusPending : Option Byte
  /-- `bridge_up` (R26). -/
  bridgeUp : Bool
  /-- `exp_out[d]` (R27). -/
  expOut : Bank Byte
  /-- The model's own: the replies given to the host so far, oldest first. Log entry 8. -/
  replies : List (List Byte)
  /-- The model's own: what the agents do next, oldest first. Log entry 2. -/
  inputs : List Input
  /-- The model's own: how many free values have been drawn. Log entry 6. -/
  draws : Nat
  deriving DecidableEq, Repr

/-- Why the block has no step: each is a "no step" of the spec (treatment `stuck` of
93_implementation_defined.md). All are safe: the model stops where the spec gives no behaviour. Log entry 5. -/
inductive Fault where
  /-- A bus event while `bridge_up` is false (41_bus_events.md R121, U4); raised by the hand-over and by
  every bus instruction. Safe. -/
  | bridgeDown
  /-- BUSERR while the bridge is down (60_exceptions.md R182); raised by BUSERR. Safe. -/
  | busErrWhileDown
  /-- RESTART while the bridge is up (60_exceptions.md R181); raised by RESTART. Safe. -/
  | restartWhileUp
  /-- POP with an empty output queue (44_status_and_output.md R165); raised by POP. Safe. -/
  | popEmptyQueue
  /-- STATUS b while b is not the pending byte (44_status_and_output.md R161); raised by STATUS. Safe. -/
  | statusNotPending
  /-- A step of the classifier side while `status_pending` is occupied (44_status_and_output.md R160);
  raised by SAMPLE, NOSAMPLE and CYCLE. Safe. -/
  | classifierHeld
  /-- A channel the board does not have (30_encoding.md R70); raised by SAMPLE and NOSAMPLE. Safe. -/
  | noSuchChannel
  /-- A SAMPLE row whose condition does not hold (spec/opcode_table.json); raised by the SAMPLE rows, never
  by a step, which selects the row by its condition. Safe. -/
  | sampleRowNotSelected
  deriving DecidableEq, Repr

/-- Why an event has no meaning. -/
inductive Refusal where
  /-- An instruction without a meaning yet; raised by exec's arms alone. Safe. -/
  | notModelled (mnemonic : String)
  /-- A Receive with more than two payload bytes, which is not in the event alphabet (30_encoding.md R68,
  U2); raised by the hand-over and by the decoder. Safe. -/
  | payloadTooLong (length : Nat)
  deriving DecidableEq, Repr

/-- What the next step is about, before any instruction runs. -/
inductive Fetched where
  /-- Every loop waits. -/
  | idle
  /-- An agent moved without an instruction. -/
  | moved (t : State)
  /-- The decode stage runs an event that the front end handed over, in this state. -/
  | handed (h : Handed) (t : State)
  /-- An event that does not come from the bus is run in this state. -/
  | event (e : InternalEvent) (t : State)
  /-- There is no step. -/
  | stuck (r : Fault)
  /-- The event is outside the alphabet. -/
  | outside (r : Refusal)
  deriving DecidableEq, Repr

/-- The state after boot (10_state.md R29, column "after boot"; 70_reset_and_hazards.md R201), on a board
`cfg`, with the unspecified value of `cur_addr` as an argument. -/
def State.boot (cfg : Config) (pointer : Byte) : State where
  cfg := cfg
  curAddr := pointer
  sticky := 0x00
  lastRaw := 0x00
  pwmMode := Vector.replicate 8 false
  pwmDuty := Vector.replicate 8 0x00
  pinLevel := cfg.pinReset
  win := Vector.replicate 8 []
  fwin := Vector.replicate 8 []
  active := Vector.replicate 8 false
  outQueue := []
  busChan := []
  statusPending := none
  bridgeUp := false
  expOut := Vector.replicate 8 0x00
  replies := []
  inputs := []
  draws := 1

/-- The machine right after reset: boot of the board, `cur_addr` the free value of draw 0. -/
def State.reset : State := State.boot Config.board (Config.freePointer 0)

end Sys2Proof.Machine
end

