-- ==== Sys2Proof/Machine/Operands.lean ====
section
/-! DEFINITION. Operands: banks of eight, bytes built bit by bit, the value of a raw sample, window
insertion, and the addresses of the indexed write registers. -/

namespace Sys2Proof.Machine

/-- Element i of a state array (00_scope.md R32). -/
def bankGet {α : Type} (b : Bank α) (i : Index) : α := b.get i

/-- Write of element i of a state array (00_scope.md R32). -/
def bankSet {α : Type} (b : Bank α) (i : Index) (v : α) : Bank α := b.set i.val v i.isLt

/-- Bit i of a byte, bit 0 the least significant (00_scope.md R31, 20_memory.md R44). -/
def bitAt (b : Byte) (i : Index) : Bool := b.getLsbD i.val

/-- The byte whose bit i is `f i`: the loop of 40_classifier.md R92. -/
def byteOf (f : Index → Bool) : Byte :=
  indices.foldl (fun b i => if f i then b ||| (1#8 <<< i.val) else b) 0#8

/-- `val16(x)` (40_classifier.md R81). -/
def val16 (signed : Bool) (x : Raw) : Int :=
  if signed then x.toInt else (x.toNat : Int)

/-- `push(w, v, W)` (40_classifier.md R82). -/
def push {α : Type} (w : List α) (v : α) (size : Nat) : List α :=
  if size < (w ++ [v]).length then (w ++ [v]).drop 1 else w ++ [v]

/-- The address of expander register N: 0x21 + N (30_encoding.md R65). -/
def expAddress (n : Index) : Byte := BitVec.ofNat 8 (0x21 + n.val)

/-- The address of PWM register n: 0x30 + n (30_encoding.md R65). -/
def pwmAddress (n : Index) : Byte := BitVec.ofNat 8 (0x30 + n.val)

end Sys2Proof.Machine
end

