-- ==== Sys2Proof/Machine/Flags.lean ====
section
/-! DEFINITION. Flag computations: the two detectors, the status byte, the honoured bits of register 0x20,
the PWM target. -/

namespace Sys2Proof.Machine

/-- max of a list of integers. A window that has just taken a sample is not empty, so the first case does
not arise on a board with `W_RS` ≥ 1; log entry 15. -/
def listMax : List Int → Int
  | [] => 0
  | a :: l => l.foldl max a

/-- min of a list of integers; as `listMax`. -/
def listMin : List Int → Int
  | [] => 0
  | a :: l => l.foldl min a

/-- `spread` of 40_classifier.md R84: no wrap-around (R86). -/
def spread (vals : List Int) : Int := listMax vals - listMin vals

/-- `higher` of 40_classifier.md R84: the entries strictly greater than the current sample. -/
def higher (vals : List Int) (y : Int) : Nat := vals.countP (fun v => decide (y < v))

/-- The rank/spread decision of 40_classifier.md R84 on a window that holds the current sample; both
comparisons strict, in integers (R86; 90_conflicts.md C1; log entry 12). -/
def rankSpreadActive (cfg : Config) (window : List Raw) (x : Raw) : Bool :=
  decide (cfg.spreadThreshold < spread (window.map (val16 cfg.sampleSigned)))
    && decide ((cfg.wRs : Int) - cfg.delta
        < higher (window.map (val16 cfg.sampleSigned)) (val16 cfg.sampleSigned x))

/-- `mean(s)` (40_classifier.md R89). -/
def mean (s : List Rat) : Rat := s.sum / s.length

/-- `popvar(s)`: the population variance, divisor n (40_classifier.md R89). -/
def popvar (s : List Rat) : Rat := (s.map fun v => (v - mean s) * (v - mean s)).sum / s.length

/-- The z-score decision of 40_classifier.md R88: two-sided, strict, both sides squared. -/
def zActive (cfg : Config) (window : List Rat) (y : Rat) : Bool :=
  decide (cfg.zThreshold * cfg.zThreshold * popvar window < (y - mean window) * (y - mean window))

/-- `blend(sig, y, w)` (40_classifier.md R90). A full window is not empty on a board with `W_Z` ≥ 1, so
`getLastD`'s default does not arise; log entry 15. -/
def blend (cfg : Config) (sig : Bool) (y : Rat) (window : List Rat) : Rat :=
  if sig then cfg.zInfluence * y + (1 - cfg.zInfluence) * window.getLastD y else y

/-- The status byte of 40_classifier.md R92: bit c is `active[c]` for the board's channels, else 0. -/
def statusByte (cfg : Config) (active : Bank Bool) : Byte :=
  byteOf fun c => decide (c.val < cfg.nChannels.val) && bankGet active c

/-- `honoured(i)` (43_register_writes.md R142). -/
def honoured (cfg : Config) (pwmMode : Bank Bool) (i : Index) : Bool :=
  !bankGet pwmMode i && !(decide (i = 0) && cfg.altAddress)

/-- The pin levels after a write of v to register 0x20 (43_register_writes.md R141). -/
def localLevels (cfg : Config) (pwmMode : Bank Bool) (levels v : Byte) : Byte :=
  byteOf fun i => if honoured cfg pwmMode i then bitAt v i else bitAt levels i

/-- `pwm_target` of a duty (43_register_writes.md R145): multiply first, then divide, rounding down. -/
def pwmTarget (cfg : Config) (duty : Byte) : Nat := cfg.periodTop * duty.toNat / 256

/-- `pin_out(i)` (10_state.md R17). DESIGN CHOICE: the function is applied to pin 0 on every board; whether pin 0 is
driven at all at the alternate address is bring-up and not in the source (R17, U9), so there the value is
the level or PWM signal the block holds for the pin, not a claim that outside hardware sees it. Log entry
29. -/
def pinOut (s : State) (i : Index) : PinOutput :=
  if bankGet s.pwmMode i then .pwm (pwmTarget s.cfg (bankGet s.pwmDuty i)) else .level (bitAt s.pinLevel i)

end Sys2Proof.Machine
end

