-- ==== Sys2Proof/Machine/Ops.lean ====
section
/-! DEFINITION. The named operations over the state that the meanings share: the guards, the address latch,
the reply, the register space, the message boundaries, the bus error and the restart. -/

namespace Sys2Proof.Machine

/-! ## Guards: when an agent has a step -/

/-- A bus event is handled only while the bridge is up (41_bus_events.md R121). -/
def onBus (s t : State) : Host.Outcome State Fault Refusal :=
  if s.bridgeUp then .next t else .fault .bridgeDown

/-- The classifier side has no step while a status byte is pending (44_status_and_output.md R160). -/
def onClassifier (s t : State) : Host.Outcome State Fault Refusal :=
  if s.statusPending.isSome then .fault .classifierHeld else .next t

/-- A step of the classifier side on channel c, which the board must have (30_encoding.md R70). -/
def onChannel (c : Index) (s t : State) : Host.Outcome State Fault Refusal :=
  if c.val < s.cfg.nChannels.val then onClassifier s t else .fault .noSuchChannel

/-- A SAMPLE row runs only where its condition holds (spec/opcode_table.json). -/
def onRow (selected : Bool) (o : Host.Outcome State Fault Refusal) : Host.Outcome State Fault Refusal :=
  if selected then o else .fault .sampleRowNotSelected

/-! ## The address pointer and the reply -/

/-- `cur_addr <- a` (41_bus_events.md R112, R113); also how the decode stage takes the address that the front end
attached (30_encoding.md R62). -/
def State.latch (s : State) (a : Byte) : State := { s with curAddr := a }

/-- `reply(bytes)` (00_scope.md R32). -/
def State.reply (s : State) (bytes : List Byte) : State := { s with replies := s.replies ++ [bytes] }

/-- The sentinel, the reply at an address with no R row (42_register_reads.md R132). -/
def sentinel : List Byte := [0xFF, 0xFF]

/-- The read view: what a Request returns for an address (20_memory.md R40, R42). -/
def readView (s : State) (a : Byte) : List Byte :=
  if a = 0x00 then [s.cfg.fwMajor]
  else if a = 0x01 then [s.cfg.fwMinor]
  else if a = 0x02 then [s.cfg.fwPatch]
  else if a = 0x03 then [BitVec.ofNat 8 s.cfg.nChannels.val]
  else if a = 0x04 then [BitVec.ofNat 8 (8 * s.cfg.nExpanders.val)]
  else if a = 0x10 then [s.sticky]
  else sentinel

/-- Byte k that the host clocks of reply number r: the reply's own byte, and beyond its end a free value
(41_bus_events.md R117, U3). `none` if no such reply was given. -/
def hostByte (s : State) (r k : Nat) : Option Byte :=
  (s.replies[r]?).map fun bytes => (bytes[k]?).getD (Config.freePadding r k)

/-- The side effect of a read of 0x10: `sticky <- last_raw` (42_register_reads.md R131). -/
def State.settleSticky (s : State) : State := { s with sticky := s.lastRaw }

/-! ## The pins -/

/-- A write of v to register 0x20 (43_register_writes.md R141). -/
def State.driveLocal (s : State) (v : Byte) : State :=
  { s with pinLevel := localLevels s.cfg s.pwmMode s.pinLevel v }

/-- Pin n enters PWM mode with duty v (43_register_writes.md R144). -/
def State.enterPwm (s : State) (n : Index) (v : Byte) : State :=
  { s with pwmMode := bankSet s.pwmMode n true, pwmDuty := bankSet s.pwmDuty n v }

/-- A write to a PWM register is honoured: the board has the row, and the pin is not the strap of a board at
the alternate address (43_register_writes.md R144, R146; log entry 14). -/
def pwmHonoured (cfg : Config) (n : Index) : Bool :=
  bitAt cfg.pwmCapable n && !(decide (n = 0) && cfg.altAddress)

/-- A write of v to PWM register n (43_register_writes.md R144, R146, R147). -/
def State.writePwm (s : State) (n : Index) (v : Byte) : State :=
  if pwmHonoured s.cfg n then s.enterPwm n v else s

/-! ## The output queue -/

/-- The tail of the queue takes a request (44_status_and_output.md R163). -/
def State.enqueue (s : State) (r : OutputRequest) : State := { s with outQueue := s.outQueue ++ [r] }

/-- What expander `r.device` receives: the whole byte, if the board has it (44_status_and_output.md R166). -/
def expanderWrite (cfg : Config) (out : Bank Byte) (r : OutputRequest) : Bank Byte :=
  if r.device.val < cfg.nExpanders.val then bankSet out r.device r.value else out

/-- The dispatcher takes the head of the queue (44_status_and_output.md R165); nothing if it is empty. -/
def State.popHead (s : State) : State :=
  match s.outQueue with
  | [] => s
  | r :: rest => { s with outQueue := rest, expOut := expanderWrite s.cfg s.expOut r }

/-- One free value has been drawn. Log entry 6. -/
def State.drawn (s : State) : State := { s with draws := s.draws + 1 }

/-- A send to a full queue (44_status_and_output.md R163, R164): if a POP comes in time (`waits`) it makes
room and the request is enqueued, else the request is dropped. Log entry 7. -/
def State.sendFull (s : State) (waits : Bool) (r : OutputRequest) : State :=
  if waits then s.popHead.enqueue r else s

/-- `emit OutputRequest(d, v)` (44_status_and_output.md R163). -/
def State.emitOutput (s : State) (r : OutputRequest) : State :=
  if s.outQueue.length < s.cfg.queueCap then s.enqueue r
  else (s.sendFull (Config.freeSendWaits s.draws) r).drawn

/-! ## The status handoff -/

/-- `emit Status(b)` (44_status_and_output.md R160). -/
def State.offerStatus (s : State) (b : Byte) : State := { s with statusPending := some b }

/-- The decode stage accepts b (44_status_and_output.md R161). -/
def State.acceptStatus (s : State) (b : Byte) : State :=
  { s with sticky := s.sticky ||| b, lastRaw := b, statusPending := none }

/-! ## The detectors -/

/-- A sample and its flag under the rank/spread strategy (40_classifier.md R84). -/
def State.updateRank (s : State) (c : Index) (w : List Raw) (flag : Bool) : State :=
  { s with win := bankSet s.win c w, active := bankSet s.active c flag }

/-- A sample and its flag under the z-score strategy (40_classifier.md R87, R88). -/
def State.updateZ (s : State) (c : Index) (w : List Rat) (flag : Bool) : State :=
  { s with fwin := bankSet s.fwin c w, active := bankSet s.active c flag }

/-! ## Taking the bus service error, and returning from it -/

/-- `raise BusError()`, entry (60_exceptions.md R180): nothing is saved; the bridge goes down and the events
handed over but not handled are lost. -/
def State.raiseBusError (s : State) : State := { s with bridgeUp := false, busChan := [] }

/-- The restart, return (60_exceptions.md R181; 10_state.md R24, R29): the bridge listens, `cur_addr` is
unspecified, nothing is restored. -/
def State.restartBridge (s : State) (pointer : Byte) : State :=
  { s with curAddr := pointer, bridgeUp := true, busChan := [] }

end Sys2Proof.Machine
end

