-- ==== Sys2Proof/Machine/BusEvents.lean ====
section
/-! DEFINITION. The bus events without a register row: RECV, SETADDR, FIN (41_bus_events.md). -/

namespace Sys2Proof.Machine

/-- RECV: nothing (41_bus_events.md R111). -/
def execRecv (s : State) : Host.Outcome State Fault Refusal := onBus s s

/-- SETADDR: `cur_addr <- a` (41_bus_events.md R112). In a step the front end has latched a already, at the
hand-over (30_encoding.md R64), and the decode stage has nothing to do. -/
def execSetAddr (a : Byte) (s : State) : Host.Outcome State Fault Refusal := onBus s (s.latch a)

/-- FIN: nothing (41_bus_events.md R115). -/
def execFin (s : State) : Host.Outcome State Fault Refusal := onBus s s

end Sys2Proof.Machine
end

