-- ==== Sys2Proof/Machine/Classifier.lean ====
section
/-! DEFINITION. The classifier: SAMPLE under the two strategies, NOSAMPLE, CYCLE (40_classifier.md). -/

namespace Sys2Proof.Machine

/-- SAMPLE under `RANK_SPREAD` (40_classifier.md R84): the sample is inserted first, and the test runs on the
window that contains it. -/
def sampleRank (c : Index) (x : Raw) (s : State) : State :=
  s.updateRank c (push (bankGet s.win c) x s.cfg.wRs)
    (rankSpreadActive s.cfg (push (bankGet s.win c) x s.cfg.wRs) x)

/-- SAMPLE under `ZSCORE` while the window fills (40_classifier.md R87). -/
def samplePriming (c : Index) (x : Raw) (s : State) : State :=
  s.updateZ c (bankGet s.fwin c ++ [(val16 s.cfg.sampleSigned x : Rat)]) false

/-- SAMPLE under `ZSCORE`, window full (40_classifier.md R88): the statistics are those before this sample,
and the blended value is inserted. -/
def sampleScored (c : Index) (x : Raw) (s : State) : State :=
  s.updateZ c
    (push (bankGet s.fwin c)
      (blend s.cfg (zActive s.cfg (bankGet s.fwin c) (val16 s.cfg.sampleSigned x : Rat))
        (val16 s.cfg.sampleSigned x : Rat) (bankGet s.fwin c)) s.cfg.wZ)
    (zActive s.cfg (bankGet s.fwin c) (val16 s.cfg.sampleSigned x : Rat))

/-- The condition of the row SAMPLE.RS. -/
def rankRow (s : State) : Bool := decide (s.cfg.strategy = .rankSpread)

/-- The condition of the row SAMPLE.Z.PRIME. -/
def primingRow (c : Index) (s : State) : Bool :=
  decide (s.cfg.strategy = .zscore) && decide ((bankGet s.fwin c).length < s.cfg.wZ)

/-- The condition of the row SAMPLE.Z: the window is full. The table writes len = `W_Z`; a longer window
does not arise (10_state.md R21) and counts as full. -/
def scoredRow (c : Index) (s : State) : Bool :=
  decide (s.cfg.strategy = .zscore) && decide (s.cfg.wZ ≤ (bankGet s.fwin c).length)

/-- SAMPLE.RS (40_classifier.md R84). -/
def execSampleRs (c : Index) (x : Raw) (s : State) : Host.Outcome State Fault Refusal :=
  onRow (rankRow s) (onChannel c s (sampleRank c x s))

/-- SAMPLE.Z.PRIME (40_classifier.md R87). -/
def execSampleZPrime (c : Index) (x : Raw) (s : State) : Host.Outcome State Fault Refusal :=
  onRow (primingRow c s) (onChannel c s (samplePriming c x s))

/-- SAMPLE.Z (40_classifier.md R88 to R90). -/
def execSampleZ (c : Index) (x : Raw) (s : State) : Host.Outcome State Fault Refusal :=
  onRow (scoredRow c s) (onChannel c s (sampleScored c x s))

/-- NOSAMPLE: nothing (40_classifier.md R91). -/
def execNoSample (c : Index) (s : State) : Host.Outcome State Fault Refusal := onChannel c s s

/-- CYCLE: `emit Status(b)` of the status byte (40_classifier.md R92). -/
def execCycle (s : State) : Host.Outcome State Fault Refusal :=
  onClassifier s (s.offerStatus (statusByte s.cfg s.active))

end Sys2Proof.Machine
end

