-- ==== Sys2Proof/Machine/Failure.lean ====
section
/-! DEFINITION. The bus service error and the restart (60_exceptions.md). -/

namespace Sys2Proof.Machine

/-- BUSERR: requires `bridge_up` (60_exceptions.md R180). -/
def execBusErr (s : State) : Host.Outcome State Fault Refusal :=
  if s.bridgeUp then .next s.raiseBusError else .fault .busErrWhileDown

/-- RESTART: requires the bridge down; `cur_addr` becomes a free value (60_exceptions.md R181). -/
def execRestart (s : State) : Host.Outcome State Fault Refusal :=
  if s.bridgeUp then .fault .restartWhileUp
  else .next (s.restartBridge (Config.freePointer s.draws)).drawn

end Sys2Proof.Machine
end

