-- ==== Sys2Proof/Machine/Messages.lean ====
section
/-! DEFINITION. The two message boundaries: STATUS and POP (44_status_and_output.md). -/

namespace Sys2Proof.Machine

/-- STATUS b: requires `status_pending = b` (44_status_and_output.md R161). -/
def execStatus (b : Byte) (s : State) : Host.Outcome State Fault Refusal :=
  if s.statusPending = some b then .next (s.acceptStatus b) else .fault .statusNotPending

/-- POP: requires a non-empty queue (44_status_and_output.md R165). -/
def execPop (s : State) : Host.Outcome State Fault Refusal :=
  if s.outQueue.isEmpty then .fault .popEmptyQueue else .next s.popHead

end Sys2Proof.Machine
end

