-- ==== Sys2Proof/Machine/Reads.lean ====
section
/-! DEFINITION. The read registers: each replies what the read view holds at its address
(42_register_reads.md); only the sticky register's read writes state. -/

namespace Sys2Proof.Machine

/-- RD_VER_MAJOR (42_register_reads.md R126). -/
def execRdVerMajor (s : State) : Host.Outcome State Fault Refusal := onBus s (s.reply (readView s 0x00))

/-- RD_VER_MINOR (42_register_reads.md R127). -/
def execRdVerMinor (s : State) : Host.Outcome State Fault Refusal := onBus s (s.reply (readView s 0x01))

/-- RD_VER_PATCH (42_register_reads.md R128). -/
def execRdVerPatch (s : State) : Host.Outcome State Fault Refusal := onBus s (s.reply (readView s 0x02))

/-- RD_NCHAN: the configured channels (42_register_reads.md R129, 90_conflicts.md C4). -/
def execRdNchan (s : State) : Host.Outcome State Fault Refusal := onBus s (s.reply (readView s 0x03))

/-- RD_NOUT: 8 × N_EXPANDERS (42_register_reads.md R130). -/
def execRdNout (s : State) : Host.Outcome State Fault Refusal := onBus s (s.reply (readView s 0x04))

/-- RD_STICKY: the reply, then `sticky <- last_raw`, in one step (42_register_reads.md R131, 20_memory.md
R58). -/
def execRdSticky (s : State) : Host.Outcome State Fault Refusal :=
  onBus s (s.reply (readView s 0x10)).settleSticky

/-- RD_UNKNOWN: the sentinel (42_register_reads.md R132), whatever the address. -/
def execRdUnknown (_a : Byte) (s : State) : Host.Outcome State Fault Refusal := onBus s (s.reply sentinel)

end Sys2Proof.Machine
end

