-- ==== Sys2Proof/Machine/Writes.lean ====
section
/-! DEFINITION. The write registers: each latches its address, then acts (41_bus_events.md R113,
43_register_writes.md). In a step the latch has been made at the hand-over, by the front end (30_encoding.md
R64), and the meaning finds its own address attached. -/

namespace Sys2Proof.Machine

/-- A write of v to expander register N: the latch, then the send (43_register_writes.md R143). -/
def writeExpander (n : Index) (v : Byte) (s : State) : Host.Outcome State Fault Refusal :=
  onBus s ((s.latch (expAddress n)).emitOutput ⟨n, v⟩)

/-- A write of v to PWM register n: the latch, then the pin (43_register_writes.md R144, R146). -/
def writePwmRegister (n : Index) (v : Byte) (s : State) : Host.Outcome State Fault Refusal :=
  onBus s ((s.latch (pwmAddress n)).writePwm n v)

/-- WR_LOCAL (43_register_writes.md R141). -/
def execWrLocal (v : Byte) (s : State) : Host.Outcome State Fault Refusal :=
  onBus s ((s.latch 0x20).driveLocal v)

/-- WR_EXP0: expander register 0, address 0x21 (43_register_writes.md R143). -/
def execWrExp0 (v : Byte) (s : State) : Host.Outcome State Fault Refusal := writeExpander 0 v s

/-- WR_EXP1: expander register 1, address 0x22 (43_register_writes.md R143). -/
def execWrExp1 (v : Byte) (s : State) : Host.Outcome State Fault Refusal := writeExpander 1 v s

/-- WR_EXP2: expander register 2, address 0x23 (43_register_writes.md R143). -/
def execWrExp2 (v : Byte) (s : State) : Host.Outcome State Fault Refusal := writeExpander 2 v s

/-- WR_EXP3: expander register 3, address 0x24 (43_register_writes.md R143). -/
def execWrExp3 (v : Byte) (s : State) : Host.Outcome State Fault Refusal := writeExpander 3 v s

/-- WR_EXP4: expander register 4, address 0x25 (43_register_writes.md R143). -/
def execWrExp4 (v : Byte) (s : State) : Host.Outcome State Fault Refusal := writeExpander 4 v s

/-- WR_EXP5: expander register 5, address 0x26 (43_register_writes.md R143). -/
def execWrExp5 (v : Byte) (s : State) : Host.Outcome State Fault Refusal := writeExpander 5 v s

/-- WR_EXP6: expander register 6, address 0x27 (43_register_writes.md R143). -/
def execWrExp6 (v : Byte) (s : State) : Host.Outcome State Fault Refusal := writeExpander 6 v s

/-- WR_EXP7: expander register 7, address 0x28 (43_register_writes.md R143). -/
def execWrExp7 (v : Byte) (s : State) : Host.Outcome State Fault Refusal := writeExpander 7 v s

/-- WR_PWM0: PWM register 0, address 0x30 (43_register_writes.md R144). -/
def execWrPwm0 (v : Byte) (s : State) : Host.Outcome State Fault Refusal := writePwmRegister 0 v s

/-- WR_PWM1: PWM register 1, address 0x31 (43_register_writes.md R144). -/
def execWrPwm1 (v : Byte) (s : State) : Host.Outcome State Fault Refusal := writePwmRegister 1 v s

/-- WR_PWM2: PWM register 2, address 0x32 (43_register_writes.md R144). -/
def execWrPwm2 (v : Byte) (s : State) : Host.Outcome State Fault Refusal := writePwmRegister 2 v s

/-- WR_PWM3: PWM register 3, address 0x33 (43_register_writes.md R144). -/
def execWrPwm3 (v : Byte) (s : State) : Host.Outcome State Fault Refusal := writePwmRegister 3 v s

/-- WR_PWM4: PWM register 4, address 0x34 (43_register_writes.md R144). -/
def execWrPwm4 (v : Byte) (s : State) : Host.Outcome State Fault Refusal := writePwmRegister 4 v s

/-- WR_PWM5: PWM register 5, address 0x35 (43_register_writes.md R144). -/
def execWrPwm5 (v : Byte) (s : State) : Host.Outcome State Fault Refusal := writePwmRegister 5 v s

/-- WR_PWM6: PWM register 6, address 0x36 (43_register_writes.md R144). -/
def execWrPwm6 (v : Byte) (s : State) : Host.Outcome State Fault Refusal := writePwmRegister 6 v s

/-- WR_PWM7: PWM register 7, address 0x37 (43_register_writes.md R144). -/
def execWrPwm7 (v : Byte) (s : State) : Host.Outcome State Fault Refusal := writePwmRegister 7 v s

/-- WR_IGNORED: only the latch (43_register_writes.md R147); the log is no state. -/
def execWrIgnored (a _v : Byte) (s : State) : Host.Outcome State Fault Refusal := onBus s (s.latch a)

end Sys2Proof.Machine
end

