-- ==== Sys2Proof/Machine/Dispatch.lean ====
section
/-! DEFINITION. One arm per constructor of Instr: the meaning of each instruction. -/

namespace Sys2Proof.Machine

def exec (i : Instr) (s : State) : Host.Outcome State Fault Refusal :=
  match i with
  | .recv => Sys2Proof.Machine.execRecv s
  | .setAddr a => Sys2Proof.Machine.execSetAddr a s
  | .wrLocal v => Sys2Proof.Machine.execWrLocal v s
  | .wrExp0 v => Sys2Proof.Machine.execWrExp0 v s
  | .wrExp1 v => Sys2Proof.Machine.execWrExp1 v s
  | .wrExp2 v => Sys2Proof.Machine.execWrExp2 v s
  | .wrExp3 v => Sys2Proof.Machine.execWrExp3 v s
  | .wrExp4 v => Sys2Proof.Machine.execWrExp4 v s
  | .wrExp5 v => Sys2Proof.Machine.execWrExp5 v s
  | .wrExp6 v => Sys2Proof.Machine.execWrExp6 v s
  | .wrExp7 v => Sys2Proof.Machine.execWrExp7 v s
  | .wrPwm0 v => Sys2Proof.Machine.execWrPwm0 v s
  | .wrPwm1 v => Sys2Proof.Machine.execWrPwm1 v s
  | .wrPwm2 v => Sys2Proof.Machine.execWrPwm2 v s
  | .wrPwm3 v => Sys2Proof.Machine.execWrPwm3 v s
  | .wrPwm4 v => Sys2Proof.Machine.execWrPwm4 v s
  | .wrPwm5 v => Sys2Proof.Machine.execWrPwm5 v s
  | .wrPwm6 v => Sys2Proof.Machine.execWrPwm6 v s
  | .wrPwm7 v => Sys2Proof.Machine.execWrPwm7 v s
  | .wrIgnored a v => Sys2Proof.Machine.execWrIgnored a v s
  | .rdVerMajor => Sys2Proof.Machine.execRdVerMajor s
  | .rdVerMinor => Sys2Proof.Machine.execRdVerMinor s
  | .rdVerPatch => Sys2Proof.Machine.execRdVerPatch s
  | .rdNchan => Sys2Proof.Machine.execRdNchan s
  | .rdNout => Sys2Proof.Machine.execRdNout s
  | .rdSticky => Sys2Proof.Machine.execRdSticky s
  | .rdUnknown a => Sys2Proof.Machine.execRdUnknown a s
  | .fin => Sys2Proof.Machine.execFin s
  | .sampleRs c x => Sys2Proof.Machine.execSampleRs c x s
  | .sampleZPrime c x => Sys2Proof.Machine.execSampleZPrime c x s
  | .sampleZ c x => Sys2Proof.Machine.execSampleZ c x s
  | .noSample c => Sys2Proof.Machine.execNoSample c s
  | .cycle => Sys2Proof.Machine.execCycle s
  | .status b => Sys2Proof.Machine.execStatus b s
  | .pop => Sys2Proof.Machine.execPop s
  | .busErr => Sys2Proof.Machine.execBusErr s
  | .restart => Sys2Proof.Machine.execRestart s

end Sys2Proof.Machine
end

