-- ==== Sys2Proof/WellFormed.lean ====
section
/-! DEFINITION. Which instructions are well formed: the default rows hold only addresses that no other row
of their direction has (30_encoding.md R67), and a channel exists on the board (R70). -/

namespace Sys2Proof

/-- The addresses with an R row: 0x00 to 0x04 and 0x10 (20_memory.md R42). -/
def hasReadRow (a : Byte) : Bool :=
  decide (a.toNat ≤ 0x04) || decide (a.toNat = 0x10)

/-- The addresses with a W row: 0x20 to 0x28 and 0x30 to 0x37 (20_memory.md R42). -/
def hasWriteRow (a : Byte) : Bool :=
  (decide (0x20 ≤ a.toNat) && decide (a.toNat ≤ 0x28)) || (decide (0x30 ≤ a.toNat) && decide (a.toNat ≤ 0x37))

/-- The default rows do not take an address that another row of the same format has. -/
def Instr.wf : Instr → Bool
  | .wrIgnored a _ => !hasWriteRow a
  | .rdUnknown a => !hasReadRow a
  | _ => true

/-- The channel an instruction names is one of the board's: c < `N_CHANNELS` (30_encoding.md R70). -/
def Instr.onBoard (cfg : Config) : Instr → Bool
  | .sampleRs c _ => decide (c.val < cfg.nChannels.val)
  | .sampleZPrime c _ => decide (c.val < cfg.nChannels.val)
  | .sampleZ c _ => decide (c.val < cfg.nChannels.val)
  | .noSample c => decide (c.val < cfg.nChannels.val)
  | _ => true

/-- The context is one in which the instruction's row is selected: a read row by the address pointer
(30_encoding.md R66), a SAMPLE row by its condition; every other row by its event alone. -/
def Instr.selectedIn (x : Context) : Instr → Bool
  | .rdVerMajor => decide (x.curAddr = 0x00)
  | .rdVerMinor => decide (x.curAddr = 0x01)
  | .rdVerPatch => decide (x.curAddr = 0x02)
  | .rdNchan => decide (x.curAddr = 0x03)
  | .rdNout => decide (x.curAddr = 0x04)
  | .rdSticky => decide (x.curAddr = 0x10)
  | .rdUnknown a => decide (x.curAddr = a)
  | .sampleRs _ _ => decide (x.sampleRow = .rankSpread)
  | .sampleZPrime _ _ => decide (x.sampleRow = .zPriming)
  | .sampleZ _ _ => decide (x.sampleRow = .zFull)
  | _ => true

end Sys2Proof
end

