-- ==== Sys2Proof/Decode.lean ====
section
/-! DEFINITION. Decoding: from an event to its instruction, total, rejecting by name; then the encoder,
and the host's reading of the opcode table's words. -/

namespace Sys2Proof

/-- The W row of an address (30_encoding.md R66, 41_bus_events.md R113). The optional rows 0x30 to 0x37
are rows here; whether the board has one is tested by its meaning (43_register_writes.md R144). -/
def decodeWrite (a v : Byte) : Instr :=
  match a with
  | 0x20 => .wrLocal v
  | 0x21 => .wrExp0 v
  | 0x22 => .wrExp1 v
  | 0x23 => .wrExp2 v
  | 0x24 => .wrExp3 v
  | 0x25 => .wrExp4 v
  | 0x26 => .wrExp5 v
  | 0x27 => .wrExp6 v
  | 0x28 => .wrExp7 v
  | 0x30 => .wrPwm0 v
  | 0x31 => .wrPwm1 v
  | 0x32 => .wrPwm2 v
  | 0x33 => .wrPwm3 v
  | 0x34 => .wrPwm4 v
  | 0x35 => .wrPwm5 v
  | 0x36 => .wrPwm6 v
  | 0x37 => .wrPwm7 v
  | _ => .wrIgnored a v

/-- The R row of an address (30_encoding.md R66, 41_bus_events.md R114). -/
def decodeRead (a : Byte) : Instr :=
  match a with
  | 0x00 => .rdVerMajor
  | 0x01 => .rdVerMinor
  | 0x02 => .rdVerPatch
  | 0x03 => .rdNchan
  | 0x04 => .rdNout
  | 0x10 => .rdSticky
  | _ => .rdUnknown a

/-- The three Receive formats, told apart by the payload length alone (30_encoding.md R61, R64); a longer
Receive is outside the protocol (R68). -/
def decodeReceive : List Byte → Except Reject Instr
  | [] => .ok .recv
  | [a] => .ok (.setAddr a)
  | [a, v] => .ok (decodeWrite a v)
  | payload => .error (.payloadTooLong payload.length)

/-- A bus event: its kind, then its payload; a Request by the address pointer (30_encoding.md R60 to R64). -/
def decodeBus (curAddr : Byte) : BusEvent → Except Reject Instr
  | .receive payload => decodeReceive payload
  | .request => .ok (decodeRead curAddr)
  | .finish => .ok .fin

/-- The row of an event SAMPLE (40_classifier.md R83, R87, R88). -/
def decodeSample (c : Index) (x : Raw) : SampleRow → Instr
  | .rankSpread => .sampleRs c x
  | .zPriming => .sampleZPrime c x
  | .zFull => .sampleZ c x

/-- An event that does not come from the bus (30_encoding.md R70). -/
def decodeInternal (row : SampleRow) : InternalEvent → Instr
  | .sample c x => decodeSample c x row
  | .noSample c => .noSample c
  | .cycle => .cycle
  | .status b => .status b
  | .pop => .pop
  | .busErr => .busErr
  | .restart => .restart

/-- The instruction of an event. -/
def decode (x : Context) : Event → Except Reject Instr
  | .bus e => decodeBus x.curAddr e
  | .internal e => .ok (decodeInternal x.sampleRow e)

/-- The event of an instruction: its kind and its payload bytes (30_encoding.md R61 to R63, R66, R70).
A read row has no payload; its address stands in the context. -/
def encode : Instr → Event
  | .recv => .bus (.receive [])
  | .setAddr a => .bus (.receive [a])
  | .wrLocal v => .bus (.receive [0x20, v])
  | .wrExp0 v => .bus (.receive [0x21, v])
  | .wrExp1 v => .bus (.receive [0x22, v])
  | .wrExp2 v => .bus (.receive [0x23, v])
  | .wrExp3 v => .bus (.receive [0x24, v])
  | .wrExp4 v => .bus (.receive [0x25, v])
  | .wrExp5 v => .bus (.receive [0x26, v])
  | .wrExp6 v => .bus (.receive [0x27, v])
  | .wrExp7 v => .bus (.receive [0x28, v])
  | .wrPwm0 v => .bus (.receive [0x30, v])
  | .wrPwm1 v => .bus (.receive [0x31, v])
  | .wrPwm2 v => .bus (.receive [0x32, v])
  | .wrPwm3 v => .bus (.receive [0x33, v])
  | .wrPwm4 v => .bus (.receive [0x34, v])
  | .wrPwm5 v => .bus (.receive [0x35, v])
  | .wrPwm6 v => .bus (.receive [0x36, v])
  | .wrPwm7 v => .bus (.receive [0x37, v])
  | .wrIgnored a v => .bus (.receive [a, v])
  | .rdVerMajor => .bus .request
  | .rdVerMinor => .bus .request
  | .rdVerPatch => .bus .request
  | .rdNchan => .bus .request
  | .rdNout => .bus .request
  | .rdSticky => .bus .request
  | .rdUnknown _ => .bus .request
  | .fin => .bus .finish
  | .sampleRs c x => .internal (.sample c x)
  | .sampleZPrime c x => .internal (.sample c x)
  | .sampleZ c x => .internal (.sample c x)
  | .noSample c => .internal (.noSample c)
  | .cycle => .internal .cycle
  | .status b => .internal (.status b)
  | .pop => .internal .pop
  | .busErr => .internal .busErr
  | .restart => .internal .restart

/-! The words of spec/opcode_table.json (30_encoding.md R76). Its patterns do not say which format a word
has: an 8-bit word is the `cur_addr` of a Request (the R rows), or, at an address with a W row, the address
byte of a RECV2 whose value byte is 0; a 16-bit word is a RECV2 payload, its address byte in bits 7..0. Log
entry 17. -/

/-- Byte k of a word, byte 0 in bits 7..0. -/
def tableByte (w k : Nat) : Byte := BitVec.ofNat 8 (w / 2 ^ (8 * k))

/-- The bus event a table word stands for. -/
def tableEvent (nbits w : Nat) : BusEvent :=
  if nbits = 0 then .receive []
  else if nbits ≤ 8 then
    if hasWriteRow (tableByte w 0) then .receive [tableByte w 0, 0] else .request
  else if nbits ≤ 16 then .receive [tableByte w 0, tableByte w 1]
  else .receive ((List.range ((nbits + 7) / 8)).map (tableByte w))

/-- The address pointer a table word stands for: the address in its first byte (R76: "for REQ it is the
8-bit pattern of cur_addr"; R113: a Receive with an address latches it). -/
def tablePointer (w : Nat) : Byte := tableByte w 0

/-- The instruction the decoder reads from a word of the opcode table. -/
def decodeTableWord (nbits w : Nat) : Option Instr :=
  match decodeBus (tablePointer w) (tableEvent nbits w) with
  | .ok i => some i
  | .error _ => none

end Sys2Proof
end

