-- ==== Sys2Proof/Machine/Fetch.lean ====
section
/-! DEFINITION. What the next step is about: the agent whose turn it is, the event it takes, and what the
decoder reads beside the event. -/

namespace Sys2Proof.Machine

/-- The SAMPLE row in force for channel c (40_classifier.md R83, R87, R88; the conditions of
spec/opcode_table.json). -/
def sampleRow (s : State) (c : Index) : SampleRow :=
  match s.cfg.strategy with
  | .rankSpread => .rankSpread
  | .zscore => if (bankGet s.fwin c).length < s.cfg.wZ then .zPriming else .zFull

/-- The channel an event concerns; channel 0 for an event that concerns none, whose decoding does not read
the SAMPLE row. -/
def eventChannel : Event → Index
  | .internal (.sample c _) => c
  | .internal (.noSample c) => c
  | _ => 0

/-- What the decoder reads beside an event in this state. -/
def contextOf (s : State) (e : Event) : Context where
  curAddr := s.curAddr
  sampleRow := sampleRow s (eventChannel e)

/-- `cur_addr` after the front end has seen an event: a Receive that carries an address latches it, and
nothing else moves the pointer (10_state.md R12, 30_encoding.md R64). -/
def pointerAfter (e : BusEvent) (pointer : Byte) : Byte :=
  match e with
  | .receive (a :: _) => a
  | _ => pointer

/-- A Request has been handed over and its reply does not exist yet (20_memory.md R57). -/
def requestWaits (chan : List Handed) : Bool := chan.any fun h => decide (h.event = .request)

/-- The decode stage takes the head of `bus_chan`; it waits while there is none (41_bus_events.md R110). -/
def takeBusEvent (s : State) : Fetched :=
  match s.busChan with
  | [] => .moved s
  | h :: chan => .handed h { s with busChan := chan }

/-- The front end latches the address and attaches `cur_addr` to the event it puts on `bus_chan`
(30_encoding.md R62, R64; 41_bus_events.md R110). -/
def State.handEvent (s : State) (e : BusEvent) : State :=
  { s with
    curAddr := pointerAfter e s.curAddr
    busChan := s.busChan ++ [⟨e, pointerAfter e s.curAddr⟩] }

/-- The bus delivers an event: none while the bridge is down (41_bus_events.md R121), and none with more than
two payload bytes (30_encoding.md R68). While a Request waits for its reply the front end holds it and hands
nothing over: the event stays with the bus and the decode stage has the turn (20_memory.md R57,
70_reset_and_hazards.md R213). `rest` is what comes after the event. Log entry 3. -/
def handOver (s : State) (e : BusEvent) (rest : List Input) : Fetched :=
  if s.bridgeUp then
    if e.payloadLength ≤ 2 then
      if requestWaits s.busChan then takeBusEvent s
      else .moved ({ s with inputs := rest }.handEvent e)
    else .outside (.payloadTooLong e.payloadLength)
  else .stuck .bridgeDown

/-- The next thing that happens. With nothing to come every loop waits (log entry 4). -/
def fetch (s : State) : Fetched :=
  match s.inputs with
  | [] => .idle
  | .deliver e :: rest => handOver s e rest
  | .decodeStage :: rest => takeBusEvent { s with inputs := rest }
  | .internal e :: rest => .event e { s with inputs := rest }

/-- The decode stage does not own `cur_addr`: what it ran leaves the front end's pointer as it was
(10_state.md R10, R12). Log entry 3. -/
def keepPointer (pointer : Byte) (o : Host.Outcome State Fault Refusal) : Host.Outcome State Fault Refusal :=
  match o with
  | .next t => .next (t.latch pointer)
  | .fault r => .fault r
  | .refused r => .refused r

end Sys2Proof.Machine
end

