-- ==== Sys2Proof/Machine/Step.lean ====
section
/-! DEFINITION. The step: the next agent moves; an event is decoded and its instruction run. -/

namespace Sys2Proof.Machine

/-- An event is decoded in its context and its instruction run; an event outside the alphabet is refused by
name (30_encoding.md R68). -/
def runEvent (e : Event) (s : State) : Host.Outcome State Fault Refusal :=
  match decode (contextOf s e) e with
  | .ok i => exec i s
  | .error (.payloadTooLong n) => .refused (.payloadTooLong n)

/-- The decode stage handles an event that was handed over: its instruction runs with `cur_addr` as the front
end attached it (30_encoding.md R62), and the front end's own pointer, which may have moved on since, is not
the decode stage's to write (10_state.md R10). Log entry 3. -/
def runHanded (h : Handed) (s : State) : Host.Outcome State Fault Refusal :=
  keepPointer s.curAddr (runEvent (.bus h.event) (s.latch h.address))

/-- One step of the block. -/
def step (s : State) : Host.Outcome State Fault Refusal :=
  match fetch s with
  | .idle => .next s
  | .moved t => .next t
  | .handed h t => runHanded h t
  | .event e t => runEvent (.internal e) t
  | .stuck r => .fault r
  | .outside r => .refused r

/-- The state in which the very next step runs the instruction of a table word: the bridge listens, the
event stands at the head of `bus_chan` with the word's address attached, the decode stage has the next turn,
and the address pointer is that address too. Log entry 17. -/
def State.withFetchWord (s : State) (nbits w : Nat) : State :=
  { s with
    curAddr := tablePointer w
    bridgeUp := true
    busChan := ⟨tableEvent nbits w, tablePointer w⟩ :: s.busChan
    inputs := .decodeStage :: s.inputs }

end Sys2Proof.Machine
end

