-- ==== Sys2Proof/Safety.lean ====
section
/-! DEFINITION. What statements are said in: runs of instructions and of samples, the indexed write
registers, and the invariant of the block. -/

namespace Sys2Proof.Machine

/-- The next thing after an outcome: it runs in the next state, and a stop stays a stop. -/
def andThen (o : Host.Outcome State Fault Refusal) (f : State → Host.Outcome State Fault Refusal) :
    Host.Outcome State Fault Refusal :=
  match o with
  | .next t => f t
  | .fault r => .fault r
  | .refused r => .refused r

/-- Instructions one after another. -/
def runInstrs : List Instr → State → Host.Outcome State Fault Refusal
  | [], s => .next s
  | i :: rest, s => andThen (exec i s) (runInstrs rest)

/-- Samples of one channel one after another, each as its event SAMPLE (40_classifier.md R83). -/
def runSamples (c : Index) : List Raw → State → Host.Outcome State Fault Refusal
  | [], s => .next s
  | x :: rest, s => andThen (runEvent (.internal (.sample c x)) s) (runSamples c rest)

/-- WR_EXP of device n. -/
def wrExp (n : Index) (v : Byte) : Instr :=
  match n with
  | 0 => .wrExp0 v
  | 1 => .wrExp1 v
  | 2 => .wrExp2 v
  | 3 => .wrExp3 v
  | 4 => .wrExp4 v
  | 5 => .wrExp5 v
  | 6 => .wrExp6 v
  | 7 => .wrExp7 v

/-- WR_PWM of pin n. -/
def wrPwm (n : Index) (v : Byte) : Instr :=
  match n with
  | 0 => .wrPwm0 v
  | 1 => .wrPwm1 v
  | 2 => .wrPwm2 v
  | 3 => .wrPwm3 v
  | 4 => .wrPwm4 v
  | 5 => .wrPwm5 v
  | 6 => .wrPwm6 v
  | 7 => .wrPwm7 v

/-- The instruction is a bus event's (30_encoding.md R60). -/
def isBus (i : Instr) : Bool :=
  match encode i with
  | .bus _ => true
  | .internal _ => false

/-- The instruction is a step of the classifier side (60_exceptions.md R191). -/
def isClassifier : Instr → Bool
  | .sampleRs _ _ => true
  | .sampleZPrime _ _ => true
  | .sampleZ _ _ => true
  | .noSample _ => true
  | .cycle => true
  | _ => false

/-- The status bytes accepted in a run. -/
def acceptedBytes : List Instr → List Byte
  | [] => []
  | .status b :: rest => b :: acceptedBytes rest
  | _ :: rest => acceptedBytes rest

/-- The bitwise OR of bytes; 0x00 for none. -/
def orAll (bytes : List Byte) : Byte := bytes.foldr (· ||| ·) 0#8

/-- The bits of a byte at and above `N_CHANNELS` are 0 (40_classifier.md R92). -/
def noBitBeyondChannels (cfg : Config) (b : Byte) : Prop :=
  ∀ c : Index, cfg.nChannels.val ≤ c.val → bitAt b c = false

/-- The detectors' part of the invariant: windows within their lengths (10_state.md R19, R21), only the
strategy's own windows used, and nothing on channels the board does not have. -/
structure DetectorInv (s : State) : Prop where
  win_length : ∀ c, (bankGet s.win c).length ≤ s.cfg.wRs
  fwin_length : ∀ c, (bankGet s.fwin c).length ≤ s.cfg.wZ
  rank_only : s.cfg.strategy = .rankSpread → ∀ c, bankGet s.fwin c = []
  zscore_only : s.cfg.strategy = .zscore → ∀ c, bankGet s.win c = []
  absent_inactive : ∀ c : Index, s.cfg.nChannels.val ≤ c.val → bankGet s.active c = false

/-- The status bytes' part: sticky covers the latest raw status (10_state.md R30), and no byte has a bit of a
channel the board does not have (42_register_reads.md R131). -/
structure StatusInv (s : State) : Prop where
  sticky_covers : s.sticky &&& s.lastRaw = s.lastRaw
  sticky_channels : noBitBeyondChannels s.cfg s.sticky
  raw_channels : noBitBeyondChannels s.cfg s.lastRaw
  pending_channels : ∀ b, s.statusPending = some b → noBitBeyondChannels s.cfg b

/-- The pins' part: PWM mode only where the board has the row and never on the strap pin of a board at the
alternate address, whose level never moves (43_register_writes.md R142, R144, R146); a duty of 0 where the
mode is off. -/
structure PinInv (s : State) : Prop where
  mode_capable : ∀ n, bankGet s.pwmMode n = true → bitAt s.cfg.pwmCapable n = true
  strap_mode : s.cfg.altAddress = true → bankGet s.pwmMode 0 = false
  strap_level : s.cfg.altAddress = true → bitAt s.pinLevel 0 = bitAt s.cfg.pinReset 0
  level_duty : ∀ n, bankGet s.pwmMode n = false → bankGet s.pwmDuty n = 0x00

/-- The queues' part: the output queue within its capacity (10_state.md R23), and an expander the board does not
have still at its default. -/
structure QueueInv (s : State) : Prop where
  queue_length : s.outQueue.length ≤ s.cfg.queueCap
  absent_expanders : ∀ d : Index, s.cfg.nExpanders.val ≤ d.val → bankGet s.expOut d = 0x00

/-- The part of `bus_chan`: bus events of at most two payload bytes (30_encoding.md R68), each with the address
it latched (R64), none of them while the bridge is down (60_exceptions.md R180); the front end's pointer is the
one attached last (30_encoding.md R62), and a Request that waits for its reply is the last event handed over
(20_memory.md R57). -/
structure ChannelInv (s : State) : Prop where
  payloads : ∀ h ∈ s.busChan, h.event.payloadLength ≤ 2
  address : ∀ h ∈ s.busChan, pointerAfter h.event h.address = h.address
  pointer : ∀ h, s.busChan.getLast? = some h → h.address = s.curAddr
  request_last : requestWaits s.busChan.dropLast = false
  down_empty : s.bridgeUp = false → s.busChan = []

/-- The invariant of the block: every step keeps it, and boot has it on a well-formed board. -/
structure Inv (s : State) : Prop where
  board : s.cfg.wf = true
  detectors : DetectorInv s
  status : StatusInv s
  pins : PinInv s
  queues : QueueInv s
  channel : ChannelInv s

end Sys2Proof.Machine
end

