-- ==== Sys2Proof/Certificates/Slice0/Obligations.lean ====
section
/-! DEFINITION. The statements for the provers, from the numbered rules of the spec. -/

open Sys2Proof Sys2Proof.Machine

/-! ## Encoding and decoding -/

/-- O1. Decode and encode agree: the event of a well-formed instruction, in a context that selects its row,
decodes to that instruction, with every operand (30_encoding.md R60 to R66, R70). -/
def Obligations.DecodeOfEncodeIsInstruction : Prop :=
  ∀ (x : Context) (i : Instr), i.wf = true → i.selectedIn x = true → decode x (encode i) = .ok i

/-- O2. Each event has one meaning: what an event decodes to is well formed, selected by the context, and
encodes to that event (30_encoding.md R64, R67). -/
def Obligations.EncodeOfDecodeIsEvent : Prop :=
  ∀ (x : Context) (e : Event) (i : Instr),
    decode x e = .ok i → encode i = e ∧ i.wf = true ∧ i.selectedIn x = true

/-- O3. A Receive with more than two payload bytes is refused by name, at the hand-over and on the decode
stage's turn, and nothing else is refused: every other event decodes, no instruction answers a refusal,
and a step refuses for no other reason (30_encoding.md R68). R68 rests on the spec's own decision D16. -/
def Obligations.OnlyLongReceiveIsRefused : Prop :=
  (∀ (x : Context) (payload : List Byte), 3 ≤ payload.length →
      decode x (.bus (.receive payload)) = .error (.payloadTooLong payload.length))
  ∧ (∀ (x : Context) (e : Event), (∀ payload, e = .bus (.receive payload) → payload.length ≤ 2) →
      ∃ i, decode x e = .ok i)
  ∧ (∀ (s : State) (payload : List Byte) (rest : List Input),
      s.bridgeUp = true → 3 ≤ payload.length → s.inputs = .deliver (.receive payload) :: rest →
      step s = .refused (.payloadTooLong payload.length))
  ∧ (∀ (s : State) (payload : List Byte) (a : Byte) (chan : List Handed) (rest : List Input),
      3 ≤ payload.length → s.inputs = .decodeStage :: rest → s.busChan = ⟨.receive payload, a⟩ :: chan →
      step s = .refused (.payloadTooLong payload.length))
  ∧ (∀ (i : Instr) (s : State) (r : Refusal), exec i s ≠ .refused r)
  ∧ (∀ (s : State) (r : Refusal), step s = .refused r → ∃ n, 3 ≤ n ∧ r = .payloadTooLong n)

/-- O4. Words written out from the rows of 30_encoding.md R61 and R66 decode to their rows. -/
def Obligations.TableWordsDecodeToTheirRows : Prop :=
  decodeReceive [] = .ok .recv
  ∧ decodeReceive [0b00010000] = .ok (.setAddr 0x10)
  ∧ decodeReceive [0b00100000, 0b10100101] = .ok (.wrLocal 0xA5)
  ∧ decodeReceive [0b00100010, 0b01011010] = .ok (.wrExp1 0x5A)
  ∧ decodeReceive [0b00101000, 0b10000000] = .ok (.wrExp7 0x80)
  ∧ decodeReceive [0b00110001, 0b11001000] = .ok (.wrPwm1 200)
  ∧ decodeReceive [0b00101001, 0b00000001] = .ok (.wrIgnored 0x29 0x01)
  ∧ decodeRead 0b00000100 = .rdNout
  ∧ decodeRead 0b00010000 = .rdSticky
  ∧ decodeRead 0b01111110 = .rdUnknown 0x7E

/-! ## The step -/

/-- O5. A step runs the decoded instruction: on the decode stage's turn that of the event at the head of
`bus_chan`, with `cur_addr` as the front end attached it, and on an internal event that of the event. What
the step adds: the turn and the event are used up, and after the decode stage's turn the front end's own
pointer stands as before (30_encoding.md R62, 10_state.md R10). The two turns are the model's, log entries
2 and 3. -/
def Obligations.StepRunsDecodedInstruction : Prop :=
  (∀ (s : State) (h : Handed) (chan : List Handed) (rest : List Input) (i : Instr),
      s.inputs = .decodeStage :: rest → s.busChan = h :: chan →
      decode (contextOf { s with curAddr := h.address } (.bus h.event)) (.bus h.event) = .ok i → i.wf = true →
      (∀ t, exec i { s with inputs := rest, busChan := chan, curAddr := h.address } = .next t →
        step s = .next { t with curAddr := s.curAddr })
      ∧ (∀ r, exec i { s with inputs := rest, busChan := chan, curAddr := h.address } = .fault r →
        step s = .fault r))
  ∧ (∀ (s : State) (e : InternalEvent) (rest : List Input) (i : Instr),
      s.inputs = .internal e :: rest →
      decode (contextOf s (.internal e)) (.internal e) = .ok i → i.wf = true →
      step s = exec i { s with inputs := rest })

/-- O6. The front end latches the address of a delivered event, attaches `cur_addr` to it, puts it at the
end of `bus_chan`, and moves nothing else; while a Request waits for its reply it takes nothing, and the
decode stage has the turn; on the decode stage's turn with nothing handed over, and with nothing to come,
nothing moves (30_encoding.md R62, R64; 41_bus_events.md R110; 20_memory.md R51, R57;
70_reset_and_hazards.md R213). R51 rests on the spec's own decision D27 and the latch on D13; the turns
and the waiting steps are the model's, log entries 2 to 4. -/
def Obligations.DeliveredEventJoinsTheChannel : Prop :=
  (∀ (s : State) (e : BusEvent) (rest : List Input),
      s.bridgeUp = true → e.payloadLength ≤ 2 → s.inputs = .deliver e :: rest →
      (∀ h ∈ s.busChan, h.event ≠ .request) →
      ∃ p : Byte,
        step s = .next { s with inputs := rest, curAddr := p, busChan := s.busChan ++ [⟨e, p⟩] }
        ∧ p = match e with
          | .receive (a :: _) => a
          | _ => s.curAddr)
  ∧ (∀ (s : State) (e : BusEvent) (rest : List Input) (h : Handed),
      s.bridgeUp = true → e.payloadLength ≤ 2 → s.inputs = .deliver e :: rest →
      h ∈ s.busChan → h.event = .request →
      step s = step { s with inputs := .decodeStage :: s.inputs })
  ∧ (∀ (s : State) (rest : List Input), s.inputs = .decodeStage :: rest → s.busChan = [] →
      step s = .next { s with inputs := rest })
  ∧ (∀ s : State, s.inputs = [] → step s = .next s)

/-- O7. The reference reduction: with nothing else waiting, handing a bus event over and handling it is
the one-stage machine's one step (20_memory.md R57). The spec derives R57. -/
def Obligations.HandOverThenHandleIsOneStage : Prop :=
  ∀ (s : State) (e : BusEvent) (rest : List Input) (i : Instr),
    s.bridgeUp = true → s.busChan = [] → s.inputs = .deliver e :: .decodeStage :: rest →
    decode (contextOf s (.bus e)) (.bus e) = .ok i →
    ∃ t, step s = .next t ∧ step t = exec i { s with inputs := rest }

/-! ## The bus events -/

/-- O8. RECV and FIN change nothing (41_bus_events.md R111, R115). They rest on the spec's own decision
D14. -/
def Obligations.EmptyReceiveAndFinishChangeNothing : Prop :=
  ∀ s : State, s.bridgeUp = true → exec .recv s = .next s ∧ exec .fin s = .next s

/-- O9. SETADDR writes `cur_addr` and nothing else (41_bus_events.md R112). R112 rests on the spec's own
decision D13. -/
def Obligations.AddressReceiveLatchesTheAddress : Prop :=
  ∀ (s : State) (a : Byte), s.bridgeUp = true → exec (.setAddr a) s = .next { s with curAddr := a }

/-- O10. While the bridge is down no bus event is handled: every bus instruction and every hand-over stops
(41_bus_events.md R121). R121 rests on the spec's own decision D22; the fault is the model's name for no
step, log entry 5. -/
def Obligations.BusEventsStopWhileTheBridgeIsDown : Prop :=
  (∀ (s : State) (i : Instr), s.bridgeUp = false → isBus i = true → exec i s = .fault .bridgeDown)
  ∧ (∀ (s : State) (e : BusEvent) (rest : List Input), s.bridgeUp = false → s.inputs = .deliver e :: rest →
      step s = .fault .bridgeDown)

/-- O11. While the bridge is up every bus event runs: none is rejected or faulted (41_bus_events.md R116).
The spec derives R116. -/
def Obligations.EveryBusEventRunsWhileTheBridgeIsUp : Prop :=
  ∀ (s : State) (x : Context) (e : BusEvent), s.bridgeUp = true → e.payloadLength ≤ 2 →
    ∃ i t, decode x (.bus e) = .ok i ∧ exec i s = .next t

/-! ## The read registers -/

/-- O12. The five constant registers reply one byte and change nothing else, and no step changes what a
read of them replies (42_register_reads.md R126 to R130). -/
def Obligations.ConstantRegistersReplyTheirParameter : Prop :=
  ∀ s : State,
    (s.bridgeUp = true →
      exec .rdVerMajor s = .next { s with replies := s.replies ++ [[s.cfg.fwMajor]] }
      ∧ exec .rdVerMinor s = .next { s with replies := s.replies ++ [[s.cfg.fwMinor]] }
      ∧ exec .rdVerPatch s = .next { s with replies := s.replies ++ [[s.cfg.fwPatch]] }
      ∧ exec .rdNchan s = .next { s with replies := s.replies ++ [[BitVec.ofNat 8 s.cfg.nChannels.val]] }
      ∧ exec .rdNout s = .next { s with replies := s.replies ++ [[BitVec.ofNat 8 (8 * s.cfg.nExpanders.val)]] })
    ∧ ∀ (t : State) (a : Byte), step s = .next t → a.toNat ≤ 0x04 → readView t a = readView s a

/-- O13. The counts of 0x03 and 0x04 fit their byte: the byte read is the number (42_register_reads.md R129,
R130). -/
def Obligations.CountRegistersFitTheirByte : Prop :=
  ∀ s : State,
    (readView s 0x03).map BitVec.toNat = [s.cfg.nChannels.val]
    ∧ (readView s 0x04).map BitVec.toNat = [8 * s.cfg.nExpanders.val]

/-- O14. RD_STICKY replies sticky, then sticky becomes the latest raw status; under the block's invariant (O54)
no bit of a channel the board does not have is ever in it (42_register_reads.md R131). -/
def Obligations.StickyReadRepliesThenSettles : Prop :=
  ∀ s : State,
    (s.bridgeUp = true →
      exec .rdSticky s = .next { s with replies := s.replies ++ [[s.sticky]], sticky := s.lastRaw })
    ∧ (Inv s → ∀ c : Index, s.cfg.nChannels.val ≤ c.val → s.sticky.getLsbD c.val = false)

/-- O15. At every address with no R row a Request is RD_UNKNOWN and replies exactly 0xFF 0xFF
(42_register_reads.md R132). That write-only addresses are among them is the spec's own decision D17. -/
def Obligations.UnknownAddressReadsTheSentinel : Prop :=
  ∀ (s : State) (a : Byte), s.bridgeUp = true →
    ((0x05 ≤ a.toNat ∧ a.toNat ≤ 0x0F) ∨ 0x11 ≤ a.toNat) →
    decodeRead a = .rdUnknown a
    ∧ exec (.rdUnknown a) s = .next { s with replies := s.replies ++ [[0xFF, 0xFF]] }

/-- O16. A Request replies what the read view holds at `cur_addr`, once, and writes nothing but, at 0x10,
sticky (41_bus_events.md R114). R114 rests on the spec's own decisions D14 and D18. -/
def Obligations.RequestRepliesTheReadViewAtThePointer : Prop :=
  ∀ s : State, s.bridgeUp = true →
    exec (decodeRead s.curAddr) s
      = .next { s with
          replies := s.replies ++ [readView s s.curAddr]
          sticky := if s.curAddr = 0x10 then s.lastRaw else s.sticky }

/-- O17. The read view is one byte at the addresses of the R rows, and the two-byte sentinel at every other
address (20_memory.md R41, R42). -/
def Obligations.ReadViewIsOneByteOrTheSentinel : Prop :=
  ∀ (s : State) (a : Byte),
    ((a.toNat ≤ 0x04 ∨ a.toNat = 0x10) → (readView s a).length = 1)
    ∧ (¬(a.toNat ≤ 0x04 ∨ a.toNat = 0x10) → readView s a = [0xFF, 0xFF])

/-- O18. If no STATUS is accepted between two reads of 0x10, the second replies the latest raw status,
whatever else runs between them (42_register_reads.md R133). The spec derives R133. -/
def Obligations.SecondStickyReadRepliesTheLiveStatus : Prop :=
  ∀ (s t u : State) (between : List Instr),
    exec .rdSticky s = .next t → runInstrs between t = .next u → (∀ b, .status b ∉ between) →
    u.bridgeUp = true →
    u.lastRaw = s.lastRaw
    ∧ exec .rdSticky u = .next { u with replies := u.replies ++ [[u.lastRaw]], sticky := u.lastRaw }

/-- O19. What a host clocks of a reply is the reply's own bytes, and beyond them a free value, whatever it
is (41_bus_events.md R117, U3; log entry 16). R117 rests on the spec's own decision D18. -/
def Obligations.ClockedBytesAreTheReplysOwn : Prop :=
  ∀ (s : State) (r k : Nat) (bytes : List Byte), s.replies[r]? = some bytes →
    (∀ v, bytes[k]? = some v → hostByte s r k = some v)
    ∧ (bytes.length ≤ k → hostByte s r k = some (Config.freePadding r k))

/-! ## The write registers -/

/-- O20. WR_LOCAL drives exactly the honoured pins: not a pin in PWM mode, and not pin 0 of a board at the
alternate address (43_register_writes.md R141, R142); beside the pins it latches its address, and nothing
else changes. The latch of the address is R113 with the spec's own decision D13, log entry 27. -/
def Obligations.LocalWriteDrivesTheHonouredPins : Prop :=
  ∀ (s : State) (v : Byte), s.bridgeUp = true →
    ∃ levels : Byte,
      exec (.wrLocal v) s = .next { s with curAddr := 0x20, pinLevel := levels }
      ∧ ∀ i : Index, levels.getLsbD i.val
          = if bankGet s.pwmMode i = false ∧ ¬(i = 0 ∧ s.cfg.altAddress = true)
            then v.getLsbD i.val else s.pinLevel.getLsbD i.val

/-- O21. A write to an expander register always enqueues its request when the queue has room
(43_register_writes.md R143); nothing is compared with `N_EXPANDERS`. R143 rests on the spec's own
decision D36. The latch of the address is R113 with the spec's own decision D13, log entry 27. -/
def Obligations.ExpanderWriteEnqueuesWhenThereIsRoom : Prop :=
  ∀ (s : State) (n : Index) (v : Byte), s.bridgeUp = true → s.outQueue.length < s.cfg.queueCap →
    exec (wrExp n v) s
      = .next { s with
          curAddr := BitVec.ofNat 8 (0x21 + n.val)
          outQueue := s.outQueue ++ [⟨n, v⟩] }

/-- O22. A write to an expander register that meets a full queue has two outcomes, and a free choice says
which, whatever it is: a POP and then the append, or the drop, which leaves the queue as it was
(44_status_and_output.md R163; the counter of draws is the model's, log entries 6 and 7). R163 rests on
the spec's own decision D26. The latch of the address is R113 with the spec's own decision D13, log entry
27. The expander write of the POP is R165 and R166 with D38, log entry 19. -/
def Obligations.FullQueueSendWaitsOrDrops : Prop :=
  ∀ (s : State) (n : Index) (v : Byte) (r : OutputRequest) (rest : List OutputRequest),
    s.bridgeUp = true → s.outQueue = r :: rest → s.cfg.queueCap ≤ s.outQueue.length →
    (Config.freeSendWaits s.draws = true →
      exec (wrExp n v) s
        = .next { s with
            curAddr := BitVec.ofNat 8 (0x21 + n.val)
            outQueue := rest ++ [⟨n, v⟩]
            expOut := if r.device.val < s.cfg.nExpanders.val then bankSet s.expOut r.device r.value
              else s.expOut
            draws := s.draws + 1 })
    ∧ (Config.freeSendWaits s.draws = false →
      exec (wrExp n v) s
        = .next { s with curAddr := BitVec.ofNat 8 (0x21 + n.val), draws := s.draws + 1 })

/-- O23. A write to a PWM register the board has sets the pin's mode and its duty, for every duty; on the
strap pin of a board at the alternate address it only latches (43_register_writes.md R144, R146). The
spec's own decisions D23 and D24, log entry 14. The latch of the address is R113 with the spec's own
decision D13, log entry 27. -/
def Obligations.PwmWriteSetsModeAndDuty : Prop :=
  ∀ (s : State) (n : Index) (v : Byte), s.bridgeUp = true → s.cfg.pwmCapable.getLsbD n.val = true →
    (¬(n = 0 ∧ s.cfg.altAddress = true) →
      exec (wrPwm n v) s
        = .next { s with
            curAddr := BitVec.ofNat 8 (0x30 + n.val)
            pwmMode := bankSet s.pwmMode n true
            pwmDuty := bankSet s.pwmDuty n v })
    ∧ (n = 0 ∧ s.cfg.altAddress = true →
      exec (wrPwm n v) s = .next { s with curAddr := BitVec.ofNat 8 (0x30 + n.val) })

/-- O24. A write at an address with no W row is WR_IGNORED and only latches; so does a write to a PWM
register the board does not have (43_register_writes.md R147). R147 rests on the spec's own decisions D17
and D31. The latch of the address is R113 with the spec's own decision D13, log entry 27. -/
def Obligations.UnknownWriteOnlyLatchesTheAddress : Prop :=
  (∀ (s : State) (a v : Byte), s.bridgeUp = true →
      (a.toNat ≤ 0x1F ∨ (0x29 ≤ a.toNat ∧ a.toNat ≤ 0x2F) ∨ 0x38 ≤ a.toNat) →
      decodeWrite a v = .wrIgnored a v ∧ exec (.wrIgnored a v) s = .next { s with curAddr := a })
  ∧ (∀ (s : State) (n : Index) (v : Byte), s.bridgeUp = true → s.cfg.pwmCapable.getLsbD n.val = false →
      exec (wrPwm n v) s = .next { s with curAddr := BitVec.ofNat 8 (0x30 + n.val) })

/-- O25. Every two-byte Receive latches its address and leaves everything but the pins, the queue and the
expanders alone (41_bus_events.md R113; the frame of every write register). R113 rests on the spec's own
decision D13. -/
def Obligations.TwoByteReceiveLatchesAndWritesOnlyActuators : Prop :=
  ∀ (s : State) (a v : Byte), s.bridgeUp = true →
    ∃ t, exec (decodeWrite a v) s = .next t
      ∧ t = { s with
          curAddr := a
          pwmMode := t.pwmMode
          pwmDuty := t.pwmDuty
          pinLevel := t.pinLevel
          outQueue := t.outQueue
          expOut := t.expOut
          draws := t.draws }

/-- O26. No write changes what any address reads as (20_memory.md R47, 43_register_writes.md R147). -/
def Obligations.NoWriteChangesTheReadView : Prop :=
  ∀ (s t : State) (a v b : Byte), exec (decodeWrite a v) s = .next t → readView t b = readView s b

/-- O27. Writing the same value twice to 0x20 or to a PWM register leaves the state of writing it once
(20_memory.md R47). -/
def Obligations.SecondEqualActuatorWriteChangesNothing : Prop :=
  ∀ (s t : State) (v : Byte),
    (exec (.wrLocal v) s = .next t → exec (.wrLocal v) t = .next t)
    ∧ ∀ n : Index, exec (wrPwm n v) s = .next t → exec (wrPwm n v) t = .next t

/-- O28. The PWM target is the floor of PERIOD_TOP × duty / 256: 0 at duty 0, below PERIOD_TOP at every
duty, monotone in the duty (43_register_writes.md R145). The floor is the spec's own decision D25, log
entry 18. -/
def Obligations.PwmTargetIsTheFlooredFraction : Prop :=
  ∀ (cfg : Config) (d : Byte), 0 < cfg.periodTop →
    256 * pwmTarget cfg d ≤ cfg.periodTop * d.toNat
    ∧ cfg.periodTop * d.toNat < 256 * (pwmTarget cfg d + 1)
    ∧ (d = 0 → pwmTarget cfg d = 0)
    ∧ pwmTarget cfg d < cfg.periodTop
    ∧ ∀ e : Byte, d.toNat ≤ e.toNat → pwmTarget cfg d ≤ pwmTarget cfg e

/-- O29. The output of a pin: the PWM target in PWM mode, else the level last driven (10_state.md R17).
R17 rests on the spec's own decision D35; the target written out is R145 with D25, log entry 18. Whether
pin 0 is driven at all at the alternate address is open (U9): the value shown for it there is the model's
choice, log entry 29. -/
def Obligations.PinOutputIsPwmOrLevel : Prop :=
  ∀ (s : State) (i : Index),
    (bankGet s.pwmMode i = true → pinOut s i = .pwm (s.cfg.periodTop * (bankGet s.pwmDuty i).toNat / 256))
    ∧ (bankGet s.pwmMode i = false → pinOut s i = .level (s.pinLevel.getLsbD i.val))

/-- O30. A pin is in PWM mode after an instruction exactly when it was before or the instruction is a
honoured write to its PWM register; no instruction clears the mode (10_state.md R15). The strap's case is
the spec's own decision D24. -/
def Obligations.PwmModeIsSetOnlyByItsOwnRegister : Prop :=
  ∀ (s t : State) (i : Instr) (n : Index), exec i s = .next t →
    (bankGet t.pwmMode n = true ↔
      bankGet s.pwmMode n = true
      ∨ ∃ v, i = wrPwm n v ∧ s.cfg.pwmCapable.getLsbD n.val = true
          ∧ ¬(n = 0 ∧ s.cfg.altAddress = true))

/-- O31. No step clears a PWM mode flag (70_reset_and_hazards.md R215). -/
def Obligations.NoStepLeavesPwmMode : Prop :=
  ∀ (s t : State) (n : Index), step s = .next t → bankGet s.pwmMode n = true → bankGet t.pwmMode n = true

/-- O32. No step moves the level of a pin in PWM mode, nor that of pin 0 of a board at the alternate
address (43_register_writes.md R142). PWM on the strap pin is the spec's own decision D24. -/
def Obligations.NoStepMovesAnUnhonouredPin : Prop :=
  ∀ (s t : State) (i : Index), step s = .next t →
    (bankGet s.pwmMode i = true ∨ (i = 0 ∧ s.cfg.altAddress = true)) →
    t.pinLevel.getLsbD i.val = s.pinLevel.getLsbD i.val

/-! ## The classifier -/

/-- O33. The value of a raw sample: two's complement if `SAMPLE_SIGNED`, else unsigned; the two agree
below 0x8000 (40_classifier.md R81). Which of the two a board has is open, D2. -/
def Obligations.SampleValueIsSignedOrUnsigned : Prop :=
  ∀ x : Raw,
    val16 false x = (x.toNat : Int)
    ∧ val16 true x = (if x.toNat < 0x8000 then (x.toNat : Int) else (x.toNat : Int) - 0x10000)

/-- O34. Window insertion, of raw samples and of the z-score strategy's rationals alike: the value enters
at the newest end; if that makes the window longer than its size the oldest entry goes, and otherwise none
does; the length stays within the size, and the newest `size` entries are kept in order (40_classifier.md
R82). -/
def Obligations.WindowKeepsTheNewestEntries : Prop :=
  ∀ (α : Type) (w : List α) (v : α) (size : Nat),
    (size < w.length + 1 → push w v size = (w ++ [v]).drop 1)
    ∧ (w.length + 1 ≤ size → push w v size = w ++ [v])
    ∧ (w.length ≤ size →
      (push w v size).length ≤ size ∧ push w v size = (w ++ [v]).drop (w.length + 1 - size))

/-- O35. SAMPLE under the rank/spread strategy: the sample enters the window; the channel is active
exactly when two entries differ by more than the threshold and more than `W_RS` − `DELTA` entries are
strictly greater than the sample; nothing else changes (40_classifier.md R84). R84 rests on the spec's own
decisions D4 and D6, log entry 12. -/
def Obligations.RankSpreadSampleSetsTheFlag : Prop :=
  ∀ (s : State) (c : Index) (x : Raw), s.cfg.strategy = .rankSpread → 1 ≤ s.cfg.wRs →
    c.val < s.cfg.nChannels.val → s.statusPending = none →
    ∃ flag : Bool,
      exec (.sampleRs c x) s
        = .next { s with
            win := bankSet s.win c (push (bankGet s.win c) x s.cfg.wRs)
            active := bankSet s.active c flag }
      ∧ (flag = true ↔
          (∃ a ∈ push (bankGet s.win c) x s.cfg.wRs, ∃ b ∈ push (bankGet s.win c) x s.cfg.wRs,
            s.cfg.spreadThreshold < val16 s.cfg.sampleSigned a - val16 s.cfg.sampleSigned b)
          ∧ (s.cfg.wRs : Int) - s.cfg.delta
            < ((push (bankGet s.win c) x s.cfg.wRs).filter
                (fun e => decide (val16 s.cfg.sampleSigned x < val16 s.cfg.sampleSigned e))).length)

/-- O36. The rank/spread detector is not active while its window holds fewer than `W_RS` − `DELTA` + 2
samples (40_classifier.md R85). R85 rests on the spec's own decision D5, log entry 12. -/
def Obligations.RankSpreadNeedsEnoughSamples : Prop :=
  ∀ (s t : State) (c : Index) (x : Raw), 1 ≤ s.cfg.wRs → exec (.sampleRs c x) s = .next t →
    (bankGet t.win c).length + s.cfg.delta < s.cfg.wRs + 2 → bankGet t.active c = false

/-- O37. A step down of a flat signal by more than the threshold is active for two samples and inactive at
the third, with the defaults of 00_scope.md R5 (40_classifier.md R96). The spec derives R96 from R84,
which rests on its own decision D4; that the third sample, with exactly `W_RS` − `DELTA` entries greater,
is inactive is 90_conflicts.md C1 and D6, log entry 12. -/
def Obligations.StepDownIsActiveForTwoSamples : Prop :=
  ∀ (s : State) (c : Index) (hi lo : Raw),
    s.cfg.strategy = .rankSpread → s.cfg.wRs = 9 → s.cfg.delta = 3 → s.cfg.spreadThreshold = 25 →
    c.val < s.cfg.nChannels.val → s.statusPending = none → bankGet s.win c = List.replicate 9 hi →
    25 < val16 s.cfg.sampleSigned hi - val16 s.cfg.sampleSigned lo →
    ∃ t₁ t₂ t₃,
      exec (.sampleRs c lo) s = .next t₁ ∧ exec (.sampleRs c lo) t₁ = .next t₂
      ∧ exec (.sampleRs c lo) t₂ = .next t₃
      ∧ bankGet t₁.active c = true ∧ bankGet t₂.active c = true ∧ bankGet t₃.active c = false

/-- O38. SAMPLE under the z-score strategy while its window fills: the value is appended and the channel
is inactive (40_classifier.md R87). R87 rests on the spec's own decision D8, log entry 13. -/
def Obligations.PrimingSampleIsInactive : Prop :=
  ∀ (s : State) (c : Index) (x : Raw), s.cfg.strategy = .zscore →
    (bankGet s.fwin c).length < s.cfg.wZ → c.val < s.cfg.nChannels.val → s.statusPending = none →
    exec (.sampleZPrime c x) s
      = .next { s with
          fwin := bankSet s.fwin c (bankGet s.fwin c ++ [(val16 s.cfg.sampleSigned x : Rat)])
          active := bankSet s.active c false }

/-- O39. SAMPLE under the z-score strategy, window full: active exactly when the squared deviation from
the mean is greater than the squared threshold times the population variance, both of the window before
this sample; an active sample enters blended with the newest entry, any other as itself (40_classifier.md
R88 to R90). They are the spec's own decision D8, log entry 13. -/
def Obligations.ScoredSampleTestsThenBlends : Prop :=
  ∀ (s : State) (c : Index) (x : Raw) (w : List Rat) (newest mean var y : Rat),
    s.cfg.strategy = .zscore → w = bankGet s.fwin c → s.cfg.wZ ≤ w.length → w.getLast? = some newest →
    c.val < s.cfg.nChannels.val → s.statusPending = none →
    y = (val16 s.cfg.sampleSigned x : Rat) → mean = w.sum / w.length →
    var = (w.map fun v => (v - mean) ^ 2).sum / w.length →
    ∃ flag : Bool,
      exec (.sampleZ c x) s
        = .next { s with
            fwin := bankSet s.fwin c
              (push w (if flag then s.cfg.zInfluence * y + (1 - s.cfg.zInfluence) * newest else y) s.cfg.wZ)
            active := bankSet s.active c flag }
      ∧ (flag = true ↔ s.cfg.zThreshold ^ 2 * var < (y - mean) ^ 2)

/-- O40. An event SAMPLE runs the row of the strategy, and writes the channel's window and flag and
nothing else (40_classifier.md R83). That the z-score rows are told apart by the fill of the window, a
longer window counting as full, is the model's reading of R87 and R88 (the spec's own decision D8), log
entry 11. -/
def Obligations.SampleEventWritesItsChannelOnly : Prop :=
  ∀ (s : State) (c : Index) (x : Raw),
    (s.cfg.strategy = .rankSpread → runEvent (.internal (.sample c x)) s = exec (.sampleRs c x) s)
    ∧ (s.cfg.strategy = .zscore → runEvent (.internal (.sample c x)) s
        = exec (if (bankGet s.fwin c).length < s.cfg.wZ then .sampleZPrime c x else .sampleZ c x) s)
    ∧ (c.val < s.cfg.nChannels.val → s.statusPending = none →
        ∃ w f flag,
          runEvent (.internal (.sample c x)) s
            = .next { s with
                win := bankSet s.win c w
                fwin := bankSet s.fwin c f
                active := bankSet s.active c flag })

/-- O41. A constant stream of samples is never active, under either strategy, on a board whose parameters
meet their constraints (40_classifier.md R94). The spec derives R94. -/
def Obligations.ConstantStreamIsNeverActive : Prop :=
  ∀ (s : State) (c : Index) (x : Raw) (n : Nat), s.cfg.wf = true → c.val < s.cfg.nChannels.val →
    s.statusPending = none → bankGet s.win c = [] → bankGet s.fwin c = [] →
    ∃ t, runSamples c (List.replicate (n + 1) x) s = .next t ∧ bankGet t.active c = false

/-- O42. Channels are independent: what a sample leaves on its channel depends on that channel alone, no
other channel moves, and CYCLE reads only the flags (40_classifier.md R95). The spec derives R95. -/
def Obligations.ChannelsDoNotInterfere : Prop :=
  (∀ (s s' t : State) (c : Index) (x : Raw),
      s.cfg = s'.cfg → s.statusPending = s'.statusPending → bankGet s.win c = bankGet s'.win c →
      bankGet s.fwin c = bankGet s'.fwin c → runEvent (.internal (.sample c x)) s = .next t →
      ∃ t', runEvent (.internal (.sample c x)) s' = .next t'
        ∧ bankGet t'.win c = bankGet t.win c ∧ bankGet t'.fwin c = bankGet t.fwin c
        ∧ bankGet t'.active c = bankGet t.active c
        ∧ ∀ d, d ≠ c → bankGet t'.win d = bankGet s'.win d ∧ bankGet t'.fwin d = bankGet s'.fwin d
            ∧ bankGet t'.active d = bankGet s'.active d)
  ∧ (∀ (s s' t : State), s.cfg = s'.cfg → s.statusPending = s'.statusPending → s.active = s'.active →
      exec .cycle s = .next t → ∃ t', exec .cycle s' = .next t' ∧ t'.statusPending = t.statusPending)

/-- O43. NOSAMPLE changes nothing (40_classifier.md R91). R91 rests on the spec's own decision D11. -/
def Obligations.MissingSampleChangesNothing : Prop :=
  ∀ (s : State) (c : Index), c.val < s.cfg.nChannels.val → s.statusPending = none →
    exec (.noSample c) s = .next s

/-- O44. CYCLE offers the status byte: bit i is the flag of channel i of the board, every other bit is 0;
nothing else changes (40_classifier.md R92). R92 rests on the spec's own decisions D11 and D12. -/
def Obligations.CycleOffersTheFlagsAsOneByte : Prop :=
  ∀ s : State, s.statusPending = none →
    ∃ b : Byte,
      exec .cycle s = .next { s with statusPending := some b }
      ∧ ∀ i : Index, b.getLsbD i.val = (decide (i.val < s.cfg.nChannels.val) && bankGet s.active i)

/-- O45. The classifier side is held while a status byte is pending: no SAMPLE, NOSAMPLE or CYCLE has a
step (44_status_and_output.md R160). The fault is the model's name for no step, log entry 5. -/
def Obligations.ClassifierIsHeldUntilTheByteIsAccepted : Prop :=
  ∀ (s : State) (b : Byte), s.statusPending = some b →
    exec .cycle s = .fault .classifierHeld
    ∧ (∀ c : Index, c.val < s.cfg.nChannels.val →
        exec (.noSample c) s = .fault .classifierHeld
        ∧ ∀ x : Raw, runEvent (.internal (.sample c x)) s = .fault .classifierHeld)
    ∧ ∀ (i : Instr) (t : State), isClassifier i = true → exec i s ≠ .next t

/-! ## The status update and the output queue -/

/-- O46. STATUS b, when b is pending: sticky takes b in, the latest raw status is b, nothing is pending,
and nothing else changes, whether the bridge is up or down; with no such byte pending there is no step
(44_status_and_output.md R161). R161 rests on the spec's own decisions D22 and D27; the fault is the
model's name for no step, log entry 5. -/
def Obligations.StatusAccumulatesIntoSticky : Prop :=
  ∀ (s : State) (b : Byte),
    (s.statusPending = some b →
      exec (.status b) s
        = .next { s with sticky := s.sticky ||| b, lastRaw := b, statusPending := none })
    ∧ (s.statusPending ≠ some b → exec (.status b) s = .fault .statusNotPending)

/-- O47. The sticky invariant: sticky is the latest raw status at the last read of 0x10, or 0x00 since
boot, ORed with every status byte accepted since, and it covers the latest raw status (10_state.md R30).
The spec derives R30. The 0x00 since boot is the spec's own decision D19, log entry 22. -/
def Obligations.StickyIsTheOrSinceTheLastRead : Prop :=
  (∀ (s t u : State) (since : List Instr),
      exec .rdSticky s = .next t → runInstrs since t = .next u → .rdSticky ∉ since →
      u.sticky = s.lastRaw ||| orAll (acceptedBytes since) ∧ u.sticky &&& u.lastRaw = u.lastRaw)
  ∧ (∀ (cfg : Config) (pointer : Byte) (u : State) (since : List Instr),
      runInstrs since (State.boot cfg pointer) = .next u → .rdSticky ∉ since →
      u.sticky = orAll (acceptedBytes since) ∧ u.sticky &&& u.lastRaw = u.lastRaw)

/-- O48. POP removes the head of the queue and gives its byte to its expander, if the board has it; with
an empty queue there is no step (44_status_and_output.md R165, R166). That the expander's write succeeds
is the spec's own decision D38, log entry 19; the fault is the model's name for no step, log entry 5. -/
def Obligations.PopDeliversTheHeadOfTheQueue : Prop :=
  ∀ s : State,
    (∀ (r : OutputRequest) (rest : List OutputRequest), s.outQueue = r :: rest →
      exec .pop s
        = .next { s with
            outQueue := rest
            expOut := if r.device.val < s.cfg.nExpanders.val then bankSet s.expOut r.device r.value
              else s.expOut })
    ∧ (s.outQueue = [] → exec .pop s = .fault .popEmptyQueue)

/-- O49. Requests leave in the order they entered: after k POPs the first k are gone, and each expander of
the board holds the value of the last of them for it (44_status_and_output.md R167). That every such write
of an expander succeeds is R165 and R166 with the spec's own decision D38, log entry 19. -/
def Obligations.PopsDeliverInOrder : Prop :=
  ∀ (k : Nat) (s : State), k ≤ s.outQueue.length →
    ∃ out : Bank Byte,
      runInstrs (List.replicate k .pop) s = .next { s with outQueue := s.outQueue.drop k, expOut := out }
      ∧ ∀ d : Index, bankGet out d
          = if d.val < s.cfg.nExpanders.val then
              ((((s.outQueue.take k).filter fun r => decide (r.device = d)).getLast?).map (·.value)).getD
                (bankGet s.expOut d)
            else bankGet s.expOut d

/-! ## The bus error and the restart -/

/-- O50. BUSERR takes the bridge down and loses the events handed over but not handled; it keeps
everything else, and has no step while the bridge is down (60_exceptions.md R180). R180 rests on the
spec's own decisions D22 and D39, log entry 21; the fault is the model's name for no step, log entry 5. -/
def Obligations.BusErrorTakesTheBridgeDown : Prop :=
  ∀ s : State,
    (s.bridgeUp = true → exec .busErr s = .next { s with bridgeUp := false, busChan := [] })
    ∧ (s.bridgeUp = false → exec .busErr s = .fault .busErrWhileDown)

/-- O51. RESTART makes the bridge listen with a free value in `cur_addr`, whatever it is, and an empty
`bus_chan`; it has no step while the bridge is up (60_exceptions.md R181, 10_state.md R24; the counter of
draws is the model's, log entry 6). R181 rests on the spec's own decision D22; the fault is the model's
name for no step, log entry 5. -/
def Obligations.RestartListensWithAFreePointer : Prop :=
  ∀ s : State,
    (s.bridgeUp = false →
      exec .restart s
        = .next { s with
            curAddr := Config.freePointer s.draws
            bridgeUp := true
            busChan := []
            draws := s.draws + 1 })
    ∧ (s.bridgeUp = true → exec .restart s = .fault .restartWhileUp)

/-! ## Reset, invariants and whole-machine rules -/

/-- O52. The values after boot: the column "after boot" of 10_state.md R29 (`cur_addr`, unspecified, is
left out), and reset is boot of the board. Most of the column is the spec's own decisions D10, D15, D19 to
D22, log entry 22. -/
def Obligations.BootValuesAreTheTables : Prop :=
  (∃ pointer, State.reset = State.boot Config.board pointer)
  ∧ ∀ (cfg : Config) (pointer : Byte),
      (State.boot cfg pointer).cfg = cfg
      ∧ (State.boot cfg pointer).sticky = 0x00
      ∧ (State.boot cfg pointer).lastRaw = 0x00
      ∧ (State.boot cfg pointer).pinLevel = cfg.pinReset
      ∧ (State.boot cfg pointer).outQueue = []
      ∧ (State.boot cfg pointer).busChan = []
      ∧ (State.boot cfg pointer).statusPending = none
      ∧ (State.boot cfg pointer).bridgeUp = false
      ∧ ∀ i : Index,
          bankGet (State.boot cfg pointer).pwmMode i = false
          ∧ bankGet (State.boot cfg pointer).pwmDuty i = 0x00
          ∧ bankGet (State.boot cfg pointer).win i = []
          ∧ bankGet (State.boot cfg pointer).fwin i = []
          ∧ bankGet (State.boot cfg pointer).active i = false
          ∧ bankGet (State.boot cfg pointer).expOut i = 0x00

/-- O53. The invariant of the block (O54) holds after boot of any well-formed board, and at reset
(10_state.md R29). The values after boot are the spec's own decisions D10 and D19 to D22, log entry 22. -/
def Obligations.BootMeetsTheBlocksInvariant : Prop :=
  (∀ (cfg : Config) (pointer : Byte), cfg.wf = true → Inv (State.boot cfg pointer)) ∧ Inv State.reset

/-- O54. Every step keeps the invariant of the block, from every state that meets it: windows and queue
within their sizes, only the strategy's own windows used, sticky covers the latest raw status, no status
bit of an absent channel (the spec's own decision D12), no PWM mode without its row or on the strap, the
strap pin's level never moves (D24, log entry 14), absent expanders untouched, and of `bus_chan`: within
the alphabet, empty while the bridge is down (D22), each event with the address it latched, the front
end's pointer the one attached last, and a Request that waits for its reply the last event handed over
(R57, log entry 3). -/
def Obligations.EveryStepKeepsTheBlocksInvariant : Prop :=
  ∀ s t : State, Inv s → step s = .next t → Inv t

/-- O55. No step writes a parameter (10_state.md R18). -/
def Obligations.NoStepWritesAParameter : Prop :=
  ∀ s t : State, step s = .next t → t.cfg = s.cfg

/-- O56. The pointer moves only by a Receive that carries an address, to that address, and by RESTART: not
by a Request, a Finish, an empty Receive or any other event (10_state.md R12, 41_bus_events.md R118). In a
step it is the hand-over that moves it (30_encoding.md R64), unless a Request still waits for its reply
(20_memory.md R57). They rest on the spec's own decisions D13 to D15. -/
def Obligations.PointerMovesOnlyByAnAddressOrARestart : Prop :=
  (∀ (s t : State) (i : Instr), exec i s = .next t →
    t.curAddr
      = match encode i with
        | .bus (.receive (a :: _)) => a
        | .internal .restart => Config.freePointer s.draws
        | _ => s.curAddr)
  ∧ (∀ s t : State, step s = .next t →
    t.curAddr
      = match s.inputs with
        | .deliver (.receive (a :: _)) :: _ =>
          if s.busChan.any (fun h => decide (h.event = .request)) then s.curAddr else a
        | .internal .restart :: _ => Config.freePointer s.draws
        | _ => s.curAddr)

/-- O57. Each agent writes only the state it owns: bus events leave the detectors, the status handoff,
`bridge_up` and the expanders alone; the classifier side writes its detectors and the handoff alone;
STATUS, POP, BUSERR and RESTART theirs alone (10_state.md R10, R27). One exception, of the model: an
expander write to a full queue whose free choice is to wait takes the dispatcher's POP into its own step,
and with it that POP's write of `exp_out` (log entry 7). -/
def Obligations.EachAgentWritesOnlyItsOwnState : Prop :=
  ∀ (s t : State) (i : Instr), exec i s = .next t →
    (isBus i = true →
      t.lastRaw = s.lastRaw ∧ t.win = s.win ∧ t.fwin = s.fwin ∧ t.active = s.active
      ∧ t.statusPending = s.statusPending ∧ t.bridgeUp = s.bridgeUp ∧ t.busChan = s.busChan
      ∧ t.inputs = s.inputs ∧ (i ≠ .rdSticky → t.sticky = s.sticky)
      ∧ (¬((∃ n v, i = wrExp n v) ∧ s.cfg.queueCap ≤ s.outQueue.length ∧ Config.freeSendWaits s.draws = true) →
        t.expOut = s.expOut))
    ∧ (isClassifier i = true →
      t = { s with win := t.win, fwin := t.fwin, active := t.active, statusPending := t.statusPending })
    ∧ (∀ b, i = .status b →
      t = { s with sticky := t.sticky, lastRaw := t.lastRaw, statusPending := t.statusPending })
    ∧ (i = .pop → t = { s with outQueue := t.outQueue, expOut := t.expOut })
    ∧ ((i = .busErr ∨ i = .restart) →
      t = { s with curAddr := t.curAddr, bridgeUp := t.bridgeUp, busChan := t.busChan, draws := t.draws })

/-- O58. A bus event and a sample may come in either order: each still runs after the other, and the two
orders end in the same state (20_memory.md R53, 10_state.md R10). R53 rests on the spec's own decisions
D27 and D37. -/
def Obligations.BusEventsAndSamplesCommute : Prop :=
  ∀ (s t u : State) (i : Instr) (c : Index) (x : Raw), isBus i = true → exec i s = .next t →
    runEvent (.internal (.sample c x)) s = .next u →
    ∃ w, runEvent (.internal (.sample c x)) t = .next w ∧ exec i u = .next w

/-- O59. Where a sample has no step: on a channel the board does not have, and, of the three SAMPLE rows, where
the row's condition does not hold (30_encoding.md R70, R76; the faults are the model's names for no step, log
entries 5 and 11). -/
def Obligations.SampleStopsOffTheBoardAndOffItsRow : Prop :=
  ∀ (s : State) (c : Index) (x : Raw),
    (s.cfg.nChannels.val ≤ c.val →
      exec (.noSample c) s = .fault .noSuchChannel
      ∧ runEvent (.internal (.sample c x)) s = .fault .noSuchChannel)
    ∧ (s.cfg.strategy ≠ .rankSpread → exec (.sampleRs c x) s = .fault .sampleRowNotSelected)
    ∧ (¬(s.cfg.strategy = .zscore ∧ (bankGet s.fwin c).length < s.cfg.wZ) →
      exec (.sampleZPrime c x) s = .fault .sampleRowNotSelected)
    ∧ (¬(s.cfg.strategy = .zscore ∧ s.cfg.wZ ≤ (bankGet s.fwin c).length) →
      exec (.sampleZ c x) s = .fault .sampleRowNotSelected)

/-- O60. A Request on the decode stage's turn is answered at the address the front end attached to it, whatever
the pointer has become since; the reply is given once, and beside it only a read of 0x10 writes, to sticky
(30_encoding.md R62, 41_bus_events.md R114). R114 rests on the spec's own decisions D14 and D18; the turn is
the model's, log entries 2 and 3. -/
def Obligations.RequestIsAnsweredAtTheAttachedAddress : Prop :=
  ∀ (s : State) (p : Byte) (chan : List Handed) (rest : List Input), s.bridgeUp = true →
    s.inputs = .decodeStage :: rest → s.busChan = ⟨.request, p⟩ :: chan →
    step s
      = .next { s with
          inputs := rest
          busChan := chan
          replies := s.replies ++ [readView s p]
          sticky := if p = 0x10 then s.lastRaw else s.sticky }
end

