-- ==== Sys2Proof/Laws/Bank.lean ====
section
/-! SUPPORT. Banks and bytes by index: read after write, and the bits of a byte built bit by bit. -/

namespace Sys2Proof.Machine

theorem bankGet_bankSet {α : Type} (b : Bank α) (i j : Index) (v : α) :
    bankGet (bankSet b i v) j = if i = j then v else bankGet b j := by
  have h : bankGet (bankSet b i v) j = if i.val = j.val then v else bankGet b j := by
    simp only [bankGet, bankSet, Vector.get_eq_getElem]
    exact Vector.getElem_set i.isLt j.isLt
  simpa [Fin.ext_iff] using h

@[simp] theorem bankGet_bankSet_same {α : Type} (b : Bank α) (i : Index) (v : α) :
    bankGet (bankSet b i v) i = v := by simp [bankGet_bankSet]

theorem bankGet_bankSet_other {α : Type} (b : Bank α) {i j : Index} (v : α) (h : i ≠ j) :
    bankGet (bankSet b i v) j = bankGet b j := by simp [bankGet_bankSet, h]

@[simp] theorem bankGet_replicate {α : Type} (v : α) (i : Index) :
    bankGet (Vector.replicate 8 v) i = v := by simp [bankGet, Vector.get_eq_getElem]

/-- Banks that agree at every index are equal. -/
theorem bank_ext {α : Type} {b b' : Bank α} (h : ∀ i, bankGet b i = bankGet b' i) : b = b' := by
  apply Vector.ext
  intro i hi
  simpa [bankGet, Vector.get_eq_getElem] using h ⟨i, hi⟩

/-- Setting an element to what it is changes nothing. -/
theorem bankSet_self {α : Type} (b : Bank α) (i : Index) : bankSet b i (bankGet b i) = b := by
  apply bank_ext
  intro j
  by_cases h : i = j <;> simp [bankGet_bankSet, h]

/-- A second write of an element wins. -/
theorem bankSet_bankSet {α : Type} (b : Bank α) (i : Index) (v w : α) :
    bankSet (bankSet b i v) i w = bankSet b i w := by
  apply bank_ext
  intro j
  by_cases h : i = j <;> simp [bankGet_bankSet, h]

/-- Bytes that agree at every bit are equal. -/
theorem byte_ext {a b : Byte} (h : ∀ i : Index, bitAt a i = bitAt b i) : a = b := by
  apply BitVec.eq_of_getLsbD_eq
  intro i hi
  exact h ⟨i, hi⟩

/-- Bit i of the byte built from `f` is `f i`. -/
@[simp] theorem bitAt_byteOf (f : Index → Bool) (i : Index) : bitAt (byteOf f) i = f i := by
  have key : ∀ b0 b1 b2 b3 b4 b5 b6 b7 : Bool, ∀ j : Index,
      bitAt (byteOf fun k => [b0, b1, b2, b3, b4, b5, b6, b7].getD k.val false) j
        = [b0, b1, b2, b3, b4, b5, b6, b7].getD j.val false := by decide
  have hf : f = fun k : Index => [f 0, f 1, f 2, f 3, f 4, f 5, f 6, f 7].getD k.val false := by
    funext k
    fin_cases k <;> rfl
  rw [hf]
  exact key _ _ _ _ _ _ _ _ i

@[simp] theorem bitAt_or (a b : Byte) (i : Index) : bitAt (a ||| b) i = (bitAt a i || bitAt b i) := by
  simp [bitAt]

@[simp] theorem bitAt_and (a b : Byte) (i : Index) : bitAt (a &&& b) i = (bitAt a i && bitAt b i) := by
  simp [bitAt]

@[simp] theorem bitAt_zero (i : Index) : bitAt 0#8 i = false := by simp [bitAt]

/-- Bit i of the pin levels after a write to register 0x20: the honoured bits are the value's. -/
theorem bitAt_localLevels (cfg : Config) (mode : Bank Bool) (levels v : Byte) (i : Index) :
    bitAt (localLevels cfg mode levels v) i
      = if honoured cfg mode i then bitAt v i else bitAt levels i := by
  simp [localLevels]

/-- Bit i of the status byte. -/
theorem bitAt_statusByte (cfg : Config) (active : Bank Bool) (i : Index) :
    bitAt (statusByte cfg active) i = (decide (i.val < cfg.nChannels.val) && bankGet active i) := by
  simp [statusByte]

end Sys2Proof.Machine
end

