-- ==== Sys2Proof/Laws/State.lean ====
section
/-! SUPPORT. One lemma per field per update of the state, so that no later proof unfolds a record update. -/

namespace Sys2Proof.Machine.State

variable (s : State)

/-- Latching the address that stands in `cur_addr` changes nothing. -/
theorem latch_eq_self {s : State} {a : Byte} (h : s.curAddr = a) : s.latch a = s := by subst h; rfl

@[simp] theorem latch_cfg (a : Byte) : (s.latch a).cfg = s.cfg := rfl
@[simp] theorem latch_curAddr (a : Byte) : (s.latch a).curAddr = a := rfl
@[simp] theorem latch_sticky (a : Byte) : (s.latch a).sticky = s.sticky := rfl
@[simp] theorem latch_lastRaw (a : Byte) : (s.latch a).lastRaw = s.lastRaw := rfl
@[simp] theorem latch_pwmMode (a : Byte) : (s.latch a).pwmMode = s.pwmMode := rfl
@[simp] theorem latch_pwmDuty (a : Byte) : (s.latch a).pwmDuty = s.pwmDuty := rfl
@[simp] theorem latch_pinLevel (a : Byte) : (s.latch a).pinLevel = s.pinLevel := rfl
@[simp] theorem latch_win (a : Byte) : (s.latch a).win = s.win := rfl
@[simp] theorem latch_fwin (a : Byte) : (s.latch a).fwin = s.fwin := rfl
@[simp] theorem latch_active (a : Byte) : (s.latch a).active = s.active := rfl
@[simp] theorem latch_outQueue (a : Byte) : (s.latch a).outQueue = s.outQueue := rfl
@[simp] theorem latch_busChan (a : Byte) : (s.latch a).busChan = s.busChan := rfl
@[simp] theorem latch_statusPending (a : Byte) : (s.latch a).statusPending = s.statusPending := rfl
@[simp] theorem latch_bridgeUp (a : Byte) : (s.latch a).bridgeUp = s.bridgeUp := rfl
@[simp] theorem latch_expOut (a : Byte) : (s.latch a).expOut = s.expOut := rfl
@[simp] theorem latch_replies (a : Byte) : (s.latch a).replies = s.replies := rfl
@[simp] theorem latch_inputs (a : Byte) : (s.latch a).inputs = s.inputs := rfl
@[simp] theorem latch_draws (a : Byte) : (s.latch a).draws = s.draws := rfl

@[simp] theorem reply_cfg (bytes : List Byte) : (s.reply bytes).cfg = s.cfg := rfl
@[simp] theorem reply_curAddr (bytes : List Byte) : (s.reply bytes).curAddr = s.curAddr := rfl
@[simp] theorem reply_sticky (bytes : List Byte) : (s.reply bytes).sticky = s.sticky := rfl
@[simp] theorem reply_lastRaw (bytes : List Byte) : (s.reply bytes).lastRaw = s.lastRaw := rfl
@[simp] theorem reply_pwmMode (bytes : List Byte) : (s.reply bytes).pwmMode = s.pwmMode := rfl
@[simp] theorem reply_pwmDuty (bytes : List Byte) : (s.reply bytes).pwmDuty = s.pwmDuty := rfl
@[simp] theorem reply_pinLevel (bytes : List Byte) : (s.reply bytes).pinLevel = s.pinLevel := rfl
@[simp] theorem reply_win (bytes : List Byte) : (s.reply bytes).win = s.win := rfl
@[simp] theorem reply_fwin (bytes : List Byte) : (s.reply bytes).fwin = s.fwin := rfl
@[simp] theorem reply_active (bytes : List Byte) : (s.reply bytes).active = s.active := rfl
@[simp] theorem reply_outQueue (bytes : List Byte) : (s.reply bytes).outQueue = s.outQueue := rfl
@[simp] theorem reply_busChan (bytes : List Byte) : (s.reply bytes).busChan = s.busChan := rfl
@[simp] theorem reply_statusPending (bytes : List Byte) : (s.reply bytes).statusPending = s.statusPending := rfl
@[simp] theorem reply_bridgeUp (bytes : List Byte) : (s.reply bytes).bridgeUp = s.bridgeUp := rfl
@[simp] theorem reply_expOut (bytes : List Byte) : (s.reply bytes).expOut = s.expOut := rfl
@[simp] theorem reply_replies (bytes : List Byte) : (s.reply bytes).replies = s.replies ++ [bytes] := rfl
@[simp] theorem reply_inputs (bytes : List Byte) : (s.reply bytes).inputs = s.inputs := rfl
@[simp] theorem reply_draws (bytes : List Byte) : (s.reply bytes).draws = s.draws := rfl

@[simp] theorem settleSticky_cfg : (s.settleSticky).cfg = s.cfg := rfl
@[simp] theorem settleSticky_curAddr : (s.settleSticky).curAddr = s.curAddr := rfl
@[simp] theorem settleSticky_sticky : (s.settleSticky).sticky = s.lastRaw := rfl
@[simp] theorem settleSticky_lastRaw : (s.settleSticky).lastRaw = s.lastRaw := rfl
@[simp] theorem settleSticky_pwmMode : (s.settleSticky).pwmMode = s.pwmMode := rfl
@[simp] theorem settleSticky_pwmDuty : (s.settleSticky).pwmDuty = s.pwmDuty := rfl
@[simp] theorem settleSticky_pinLevel : (s.settleSticky).pinLevel = s.pinLevel := rfl
@[simp] theorem settleSticky_win : (s.settleSticky).win = s.win := rfl
@[simp] theorem settleSticky_fwin : (s.settleSticky).fwin = s.fwin := rfl
@[simp] theorem settleSticky_active : (s.settleSticky).active = s.active := rfl
@[simp] theorem settleSticky_outQueue : (s.settleSticky).outQueue = s.outQueue := rfl
@[simp] theorem settleSticky_busChan : (s.settleSticky).busChan = s.busChan := rfl
@[simp] theorem settleSticky_statusPending : (s.settleSticky).statusPending = s.statusPending := rfl
@[simp] theorem settleSticky_bridgeUp : (s.settleSticky).bridgeUp = s.bridgeUp := rfl
@[simp] theorem settleSticky_expOut : (s.settleSticky).expOut = s.expOut := rfl
@[simp] theorem settleSticky_replies : (s.settleSticky).replies = s.replies := rfl
@[simp] theorem settleSticky_inputs : (s.settleSticky).inputs = s.inputs := rfl
@[simp] theorem settleSticky_draws : (s.settleSticky).draws = s.draws := rfl

@[simp] theorem driveLocal_cfg (v : Byte) : (s.driveLocal v).cfg = s.cfg := rfl
@[simp] theorem driveLocal_curAddr (v : Byte) : (s.driveLocal v).curAddr = s.curAddr := rfl
@[simp] theorem driveLocal_sticky (v : Byte) : (s.driveLocal v).sticky = s.sticky := rfl
@[simp] theorem driveLocal_lastRaw (v : Byte) : (s.driveLocal v).lastRaw = s.lastRaw := rfl
@[simp] theorem driveLocal_pwmMode (v : Byte) : (s.driveLocal v).pwmMode = s.pwmMode := rfl
@[simp] theorem driveLocal_pwmDuty (v : Byte) : (s.driveLocal v).pwmDuty = s.pwmDuty := rfl
@[simp] theorem driveLocal_pinLevel (v : Byte) : (s.driveLocal v).pinLevel = localLevels s.cfg s.pwmMode s.pinLevel v := rfl
@[simp] theorem driveLocal_win (v : Byte) : (s.driveLocal v).win = s.win := rfl
@[simp] theorem driveLocal_fwin (v : Byte) : (s.driveLocal v).fwin = s.fwin := rfl
@[simp] theorem driveLocal_active (v : Byte) : (s.driveLocal v).active = s.active := rfl
@[simp] theorem driveLocal_outQueue (v : Byte) : (s.driveLocal v).outQueue = s.outQueue := rfl
@[simp] theorem driveLocal_busChan (v : Byte) : (s.driveLocal v).busChan = s.busChan := rfl
@[simp] theorem driveLocal_statusPending (v : Byte) : (s.driveLocal v).statusPending = s.statusPending := rfl
@[simp] theorem driveLocal_bridgeUp (v : Byte) : (s.driveLocal v).bridgeUp = s.bridgeUp := rfl
@[simp] theorem driveLocal_expOut (v : Byte) : (s.driveLocal v).expOut = s.expOut := rfl
@[simp] theorem driveLocal_replies (v : Byte) : (s.driveLocal v).replies = s.replies := rfl
@[simp] theorem driveLocal_inputs (v : Byte) : (s.driveLocal v).inputs = s.inputs := rfl
@[simp] theorem driveLocal_draws (v : Byte) : (s.driveLocal v).draws = s.draws := rfl

@[simp] theorem enterPwm_cfg (n : Index) (v : Byte) : (s.enterPwm n v).cfg = s.cfg := rfl
@[simp] theorem enterPwm_curAddr (n : Index) (v : Byte) : (s.enterPwm n v).curAddr = s.curAddr := rfl
@[simp] theorem enterPwm_sticky (n : Index) (v : Byte) : (s.enterPwm n v).sticky = s.sticky := rfl
@[simp] theorem enterPwm_lastRaw (n : Index) (v : Byte) : (s.enterPwm n v).lastRaw = s.lastRaw := rfl
@[simp] theorem enterPwm_pwmMode (n : Index) (v : Byte) : (s.enterPwm n v).pwmMode = bankSet s.pwmMode n true := rfl
@[simp] theorem enterPwm_pwmDuty (n : Index) (v : Byte) : (s.enterPwm n v).pwmDuty = bankSet s.pwmDuty n v := rfl
@[simp] theorem enterPwm_pinLevel (n : Index) (v : Byte) : (s.enterPwm n v).pinLevel = s.pinLevel := rfl
@[simp] theorem enterPwm_win (n : Index) (v : Byte) : (s.enterPwm n v).win = s.win := rfl
@[simp] theorem enterPwm_fwin (n : Index) (v : Byte) : (s.enterPwm n v).fwin = s.fwin := rfl
@[simp] theorem enterPwm_active (n : Index) (v : Byte) : (s.enterPwm n v).active = s.active := rfl
@[simp] theorem enterPwm_outQueue (n : Index) (v : Byte) : (s.enterPwm n v).outQueue = s.outQueue := rfl
@[simp] theorem enterPwm_busChan (n : Index) (v : Byte) : (s.enterPwm n v).busChan = s.busChan := rfl
@[simp] theorem enterPwm_statusPending (n : Index) (v : Byte) : (s.enterPwm n v).statusPending = s.statusPending := rfl
@[simp] theorem enterPwm_bridgeUp (n : Index) (v : Byte) : (s.enterPwm n v).bridgeUp = s.bridgeUp := rfl
@[simp] theorem enterPwm_expOut (n : Index) (v : Byte) : (s.enterPwm n v).expOut = s.expOut := rfl
@[simp] theorem enterPwm_replies (n : Index) (v : Byte) : (s.enterPwm n v).replies = s.replies := rfl
@[simp] theorem enterPwm_inputs (n : Index) (v : Byte) : (s.enterPwm n v).inputs = s.inputs := rfl
@[simp] theorem enterPwm_draws (n : Index) (v : Byte) : (s.enterPwm n v).draws = s.draws := rfl

@[simp] theorem enqueue_cfg (r : OutputRequest) : (s.enqueue r).cfg = s.cfg := rfl
@[simp] theorem enqueue_curAddr (r : OutputRequest) : (s.enqueue r).curAddr = s.curAddr := rfl
@[simp] theorem enqueue_sticky (r : OutputRequest) : (s.enqueue r).sticky = s.sticky := rfl
@[simp] theorem enqueue_lastRaw (r : OutputRequest) : (s.enqueue r).lastRaw = s.lastRaw := rfl
@[simp] theorem enqueue_pwmMode (r : OutputRequest) : (s.enqueue r).pwmMode = s.pwmMode := rfl
@[simp] theorem enqueue_pwmDuty (r : OutputRequest) : (s.enqueue r).pwmDuty = s.pwmDuty := rfl
@[simp] theorem enqueue_pinLevel (r : OutputRequest) : (s.enqueue r).pinLevel = s.pinLevel := rfl
@[simp] theorem enqueue_win (r : OutputRequest) : (s.enqueue r).win = s.win := rfl
@[simp] theorem enqueue_fwin (r : OutputRequest) : (s.enqueue r).fwin = s.fwin := rfl
@[simp] theorem enqueue_active (r : OutputRequest) : (s.enqueue r).active = s.active := rfl
@[simp] theorem enqueue_outQueue (r : OutputRequest) : (s.enqueue r).outQueue = s.outQueue ++ [r] := rfl
@[simp] theorem enqueue_busChan (r : OutputRequest) : (s.enqueue r).busChan = s.busChan := rfl
@[simp] theorem enqueue_statusPending (r : OutputRequest) : (s.enqueue r).statusPending = s.statusPending := rfl
@[simp] theorem enqueue_bridgeUp (r : OutputRequest) : (s.enqueue r).bridgeUp = s.bridgeUp := rfl
@[simp] theorem enqueue_expOut (r : OutputRequest) : (s.enqueue r).expOut = s.expOut := rfl
@[simp] theorem enqueue_replies (r : OutputRequest) : (s.enqueue r).replies = s.replies := rfl
@[simp] theorem enqueue_inputs (r : OutputRequest) : (s.enqueue r).inputs = s.inputs := rfl
@[simp] theorem enqueue_draws (r : OutputRequest) : (s.enqueue r).draws = s.draws := rfl

@[simp] theorem drawn_cfg : (s.drawn).cfg = s.cfg := rfl
@[simp] theorem drawn_curAddr : (s.drawn).curAddr = s.curAddr := rfl
@[simp] theorem drawn_sticky : (s.drawn).sticky = s.sticky := rfl
@[simp] theorem drawn_lastRaw : (s.drawn).lastRaw = s.lastRaw := rfl
@[simp] theorem drawn_pwmMode : (s.drawn).pwmMode = s.pwmMode := rfl
@[simp] theorem drawn_pwmDuty : (s.drawn).pwmDuty = s.pwmDuty := rfl
@[simp] theorem drawn_pinLevel : (s.drawn).pinLevel = s.pinLevel := rfl
@[simp] theorem drawn_win : (s.drawn).win = s.win := rfl
@[simp] theorem drawn_fwin : (s.drawn).fwin = s.fwin := rfl
@[simp] theorem drawn_active : (s.drawn).active = s.active := rfl
@[simp] theorem drawn_outQueue : (s.drawn).outQueue = s.outQueue := rfl
@[simp] theorem drawn_busChan : (s.drawn).busChan = s.busChan := rfl
@[simp] theorem drawn_statusPending : (s.drawn).statusPending = s.statusPending := rfl
@[simp] theorem drawn_bridgeUp : (s.drawn).bridgeUp = s.bridgeUp := rfl
@[simp] theorem drawn_expOut : (s.drawn).expOut = s.expOut := rfl
@[simp] theorem drawn_replies : (s.drawn).replies = s.replies := rfl
@[simp] theorem drawn_inputs : (s.drawn).inputs = s.inputs := rfl
@[simp] theorem drawn_draws : (s.drawn).draws = s.draws + 1 := rfl

@[simp] theorem offerStatus_cfg (b : Byte) : (s.offerStatus b).cfg = s.cfg := rfl
@[simp] theorem offerStatus_curAddr (b : Byte) : (s.offerStatus b).curAddr = s.curAddr := rfl
@[simp] theorem offerStatus_sticky (b : Byte) : (s.offerStatus b).sticky = s.sticky := rfl
@[simp] theorem offerStatus_lastRaw (b : Byte) : (s.offerStatus b).lastRaw = s.lastRaw := rfl
@[simp] theorem offerStatus_pwmMode (b : Byte) : (s.offerStatus b).pwmMode = s.pwmMode := rfl
@[simp] theorem offerStatus_pwmDuty (b : Byte) : (s.offerStatus b).pwmDuty = s.pwmDuty := rfl
@[simp] theorem offerStatus_pinLevel (b : Byte) : (s.offerStatus b).pinLevel = s.pinLevel := rfl
@[simp] theorem offerStatus_win (b : Byte) : (s.offerStatus b).win = s.win := rfl
@[simp] theorem offerStatus_fwin (b : Byte) : (s.offerStatus b).fwin = s.fwin := rfl
@[simp] theorem offerStatus_active (b : Byte) : (s.offerStatus b).active = s.active := rfl
@[simp] theorem offerStatus_outQueue (b : Byte) : (s.offerStatus b).outQueue = s.outQueue := rfl
@[simp] theorem offerStatus_busChan (b : Byte) : (s.offerStatus b).busChan = s.busChan := rfl
@[simp] theorem offerStatus_statusPending (b : Byte) : (s.offerStatus b).statusPending = some b := rfl
@[simp] theorem offerStatus_bridgeUp (b : Byte) : (s.offerStatus b).bridgeUp = s.bridgeUp := rfl
@[simp] theorem offerStatus_expOut (b : Byte) : (s.offerStatus b).expOut = s.expOut := rfl
@[simp] theorem offerStatus_replies (b : Byte) : (s.offerStatus b).replies = s.replies := rfl
@[simp] theorem offerStatus_inputs (b : Byte) : (s.offerStatus b).inputs = s.inputs := rfl
@[simp] theorem offerStatus_draws (b : Byte) : (s.offerStatus b).draws = s.draws := rfl

@[simp] theorem acceptStatus_cfg (b : Byte) : (s.acceptStatus b).cfg = s.cfg := rfl
@[simp] theorem acceptStatus_curAddr (b : Byte) : (s.acceptStatus b).curAddr = s.curAddr := rfl
@[simp] theorem acceptStatus_sticky (b : Byte) : (s.acceptStatus b).sticky = s.sticky ||| b := rfl
@[simp] theorem acceptStatus_lastRaw (b : Byte) : (s.acceptStatus b).lastRaw = b := rfl
@[simp] theorem acceptStatus_pwmMode (b : Byte) : (s.acceptStatus b).pwmMode = s.pwmMode := rfl
@[simp] theorem acceptStatus_pwmDuty (b : Byte) : (s.acceptStatus b).pwmDuty = s.pwmDuty := rfl
@[simp] theorem acceptStatus_pinLevel (b : Byte) : (s.acceptStatus b).pinLevel = s.pinLevel := rfl
@[simp] theorem acceptStatus_win (b : Byte) : (s.acceptStatus b).win = s.win := rfl
@[simp] theorem acceptStatus_fwin (b : Byte) : (s.acceptStatus b).fwin = s.fwin := rfl
@[simp] theorem acceptStatus_active (b : Byte) : (s.acceptStatus b).active = s.active := rfl
@[simp] theorem acceptStatus_outQueue (b : Byte) : (s.acceptStatus b).outQueue = s.outQueue := rfl
@[simp] theorem acceptStatus_busChan (b : Byte) : (s.acceptStatus b).busChan = s.busChan := rfl
@[simp] theorem acceptStatus_statusPending (b : Byte) : (s.acceptStatus b).statusPending = none := rfl
@[simp] theorem acceptStatus_bridgeUp (b : Byte) : (s.acceptStatus b).bridgeUp = s.bridgeUp := rfl
@[simp] theorem acceptStatus_expOut (b : Byte) : (s.acceptStatus b).expOut = s.expOut := rfl
@[simp] theorem acceptStatus_replies (b : Byte) : (s.acceptStatus b).replies = s.replies := rfl
@[simp] theorem acceptStatus_inputs (b : Byte) : (s.acceptStatus b).inputs = s.inputs := rfl
@[simp] theorem acceptStatus_draws (b : Byte) : (s.acceptStatus b).draws = s.draws := rfl

@[simp] theorem updateRank_cfg (c : Index) (w : List Raw) (flag : Bool) : (s.updateRank c w flag).cfg = s.cfg := rfl
@[simp] theorem updateRank_curAddr (c : Index) (w : List Raw) (flag : Bool) : (s.updateRank c w flag).curAddr = s.curAddr := rfl
@[simp] theorem updateRank_sticky (c : Index) (w : List Raw) (flag : Bool) : (s.updateRank c w flag).sticky = s.sticky := rfl
@[simp] theorem updateRank_lastRaw (c : Index) (w : List Raw) (flag : Bool) : (s.updateRank c w flag).lastRaw = s.lastRaw := rfl
@[simp] theorem updateRank_pwmMode (c : Index) (w : List Raw) (flag : Bool) : (s.updateRank c w flag).pwmMode = s.pwmMode := rfl
@[simp] theorem updateRank_pwmDuty (c : Index) (w : List Raw) (flag : Bool) : (s.updateRank c w flag).pwmDuty = s.pwmDuty := rfl
@[simp] theorem updateRank_pinLevel (c : Index) (w : List Raw) (flag : Bool) : (s.updateRank c w flag).pinLevel = s.pinLevel := rfl
@[simp] theorem updateRank_win (c : Index) (w : List Raw) (flag : Bool) : (s.updateRank c w flag).win = bankSet s.win c w := rfl
@[simp] theorem updateRank_fwin (c : Index) (w : List Raw) (flag : Bool) : (s.updateRank c w flag).fwin = s.fwin := rfl
@[simp] theorem updateRank_active (c : Index) (w : List Raw) (flag : Bool) : (s.updateRank c w flag).active = bankSet s.active c flag := rfl
@[simp] theorem updateRank_outQueue (c : Index) (w : List Raw) (flag : Bool) : (s.updateRank c w flag).outQueue = s.outQueue := rfl
@[simp] theorem updateRank_busChan (c : Index) (w : List Raw) (flag : Bool) : (s.updateRank c w flag).busChan = s.busChan := rfl
@[simp] theorem updateRank_statusPending (c : Index) (w : List Raw) (flag : Bool) : (s.updateRank c w flag).statusPending = s.statusPending := rfl
@[simp] theorem updateRank_bridgeUp (c : Index) (w : List Raw) (flag : Bool) : (s.updateRank c w flag).bridgeUp = s.bridgeUp := rfl
@[simp] theorem updateRank_expOut (c : Index) (w : List Raw) (flag : Bool) : (s.updateRank c w flag).expOut = s.expOut := rfl
@[simp] theorem updateRank_replies (c : Index) (w : List Raw) (flag : Bool) : (s.updateRank c w flag).replies = s.replies := rfl
@[simp] theorem updateRank_inputs (c : Index) (w : List Raw) (flag : Bool) : (s.updateRank c w flag).inputs = s.inputs := rfl
@[simp] theorem updateRank_draws (c : Index) (w : List Raw) (flag : Bool) : (s.updateRank c w flag).draws = s.draws := rfl

@[simp] theorem updateZ_cfg (c : Index) (w : List Rat) (flag : Bool) : (s.updateZ c w flag).cfg = s.cfg := rfl
@[simp] theorem updateZ_curAddr (c : Index) (w : List Rat) (flag : Bool) : (s.updateZ c w flag).curAddr = s.curAddr := rfl
@[simp] theorem updateZ_sticky (c : Index) (w : List Rat) (flag : Bool) : (s.updateZ c w flag).sticky = s.sticky := rfl
@[simp] theorem updateZ_lastRaw (c : Index) (w : List Rat) (flag : Bool) : (s.updateZ c w flag).lastRaw = s.lastRaw := rfl
@[simp] theorem updateZ_pwmMode (c : Index) (w : List Rat) (flag : Bool) : (s.updateZ c w flag).pwmMode = s.pwmMode := rfl
@[simp] theorem updateZ_pwmDuty (c : Index) (w : List Rat) (flag : Bool) : (s.updateZ c w flag).pwmDuty = s.pwmDuty := rfl
@[simp] theorem updateZ_pinLevel (c : Index) (w : List Rat) (flag : Bool) : (s.updateZ c w flag).pinLevel = s.pinLevel := rfl
@[simp] theorem updateZ_win (c : Index) (w : List Rat) (flag : Bool) : (s.updateZ c w flag).win = s.win := rfl
@[simp] theorem updateZ_fwin (c : Index) (w : List Rat) (flag : Bool) : (s.updateZ c w flag).fwin = bankSet s.fwin c w := rfl
@[simp] theorem updateZ_active (c : Index) (w : List Rat) (flag : Bool) : (s.updateZ c w flag).active = bankSet s.active c flag := rfl
@[simp] theorem updateZ_outQueue (c : Index) (w : List Rat) (flag : Bool) : (s.updateZ c w flag).outQueue = s.outQueue := rfl
@[simp] theorem updateZ_busChan (c : Index) (w : List Rat) (flag : Bool) : (s.updateZ c w flag).busChan = s.busChan := rfl
@[simp] theorem updateZ_statusPending (c : Index) (w : List Rat) (flag : Bool) : (s.updateZ c w flag).statusPending = s.statusPending := rfl
@[simp] theorem updateZ_bridgeUp (c : Index) (w : List Rat) (flag : Bool) : (s.updateZ c w flag).bridgeUp = s.bridgeUp := rfl
@[simp] theorem updateZ_expOut (c : Index) (w : List Rat) (flag : Bool) : (s.updateZ c w flag).expOut = s.expOut := rfl
@[simp] theorem updateZ_replies (c : Index) (w : List Rat) (flag : Bool) : (s.updateZ c w flag).replies = s.replies := rfl
@[simp] theorem updateZ_inputs (c : Index) (w : List Rat) (flag : Bool) : (s.updateZ c w flag).inputs = s.inputs := rfl
@[simp] theorem updateZ_draws (c : Index) (w : List Rat) (flag : Bool) : (s.updateZ c w flag).draws = s.draws := rfl

@[simp] theorem raiseBusError_cfg : (s.raiseBusError).cfg = s.cfg := rfl
@[simp] theorem raiseBusError_curAddr : (s.raiseBusError).curAddr = s.curAddr := rfl
@[simp] theorem raiseBusError_sticky : (s.raiseBusError).sticky = s.sticky := rfl
@[simp] theorem raiseBusError_lastRaw : (s.raiseBusError).lastRaw = s.lastRaw := rfl
@[simp] theorem raiseBusError_pwmMode : (s.raiseBusError).pwmMode = s.pwmMode := rfl
@[simp] theorem raiseBusError_pwmDuty : (s.raiseBusError).pwmDuty = s.pwmDuty := rfl
@[simp] theorem raiseBusError_pinLevel : (s.raiseBusError).pinLevel = s.pinLevel := rfl
@[simp] theorem raiseBusError_win : (s.raiseBusError).win = s.win := rfl
@[simp] theorem raiseBusError_fwin : (s.raiseBusError).fwin = s.fwin := rfl
@[simp] theorem raiseBusError_active : (s.raiseBusError).active = s.active := rfl
@[simp] theorem raiseBusError_outQueue : (s.raiseBusError).outQueue = s.outQueue := rfl
@[simp] theorem raiseBusError_busChan : (s.raiseBusError).busChan = [] := rfl
@[simp] theorem raiseBusError_statusPending : (s.raiseBusError).statusPending = s.statusPending := rfl
@[simp] theorem raiseBusError_bridgeUp : (s.raiseBusError).bridgeUp = false := rfl
@[simp] theorem raiseBusError_expOut : (s.raiseBusError).expOut = s.expOut := rfl
@[simp] theorem raiseBusError_replies : (s.raiseBusError).replies = s.replies := rfl
@[simp] theorem raiseBusError_inputs : (s.raiseBusError).inputs = s.inputs := rfl
@[simp] theorem raiseBusError_draws : (s.raiseBusError).draws = s.draws := rfl

@[simp] theorem restartBridge_cfg (pointer : Byte) : (s.restartBridge pointer).cfg = s.cfg := rfl
@[simp] theorem restartBridge_curAddr (pointer : Byte) : (s.restartBridge pointer).curAddr = pointer := rfl
@[simp] theorem restartBridge_sticky (pointer : Byte) : (s.restartBridge pointer).sticky = s.sticky := rfl
@[simp] theorem restartBridge_lastRaw (pointer : Byte) : (s.restartBridge pointer).lastRaw = s.lastRaw := rfl
@[simp] theorem restartBridge_pwmMode (pointer : Byte) : (s.restartBridge pointer).pwmMode = s.pwmMode := rfl
@[simp] theorem restartBridge_pwmDuty (pointer : Byte) : (s.restartBridge pointer).pwmDuty = s.pwmDuty := rfl
@[simp] theorem restartBridge_pinLevel (pointer : Byte) : (s.restartBridge pointer).pinLevel = s.pinLevel := rfl
@[simp] theorem restartBridge_win (pointer : Byte) : (s.restartBridge pointer).win = s.win := rfl
@[simp] theorem restartBridge_fwin (pointer : Byte) : (s.restartBridge pointer).fwin = s.fwin := rfl
@[simp] theorem restartBridge_active (pointer : Byte) : (s.restartBridge pointer).active = s.active := rfl
@[simp] theorem restartBridge_outQueue (pointer : Byte) : (s.restartBridge pointer).outQueue = s.outQueue := rfl
@[simp] theorem restartBridge_busChan (pointer : Byte) : (s.restartBridge pointer).busChan = [] := rfl
@[simp] theorem restartBridge_statusPending (pointer : Byte) : (s.restartBridge pointer).statusPending = s.statusPending := rfl
@[simp] theorem restartBridge_bridgeUp (pointer : Byte) : (s.restartBridge pointer).bridgeUp = true := rfl
@[simp] theorem restartBridge_expOut (pointer : Byte) : (s.restartBridge pointer).expOut = s.expOut := rfl
@[simp] theorem restartBridge_replies (pointer : Byte) : (s.restartBridge pointer).replies = s.replies := rfl
@[simp] theorem restartBridge_inputs (pointer : Byte) : (s.restartBridge pointer).inputs = s.inputs := rfl
@[simp] theorem restartBridge_draws (pointer : Byte) : (s.restartBridge pointer).draws = s.draws := rfl

@[simp] theorem handEvent_cfg (e : BusEvent) : (s.handEvent e).cfg = s.cfg := rfl
@[simp] theorem handEvent_curAddr (e : BusEvent) : (s.handEvent e).curAddr =
    pointerAfter e s.curAddr := rfl
@[simp] theorem handEvent_sticky (e : BusEvent) : (s.handEvent e).sticky = s.sticky := rfl
@[simp] theorem handEvent_lastRaw (e : BusEvent) : (s.handEvent e).lastRaw = s.lastRaw := rfl
@[simp] theorem handEvent_pwmMode (e : BusEvent) : (s.handEvent e).pwmMode = s.pwmMode := rfl
@[simp] theorem handEvent_pwmDuty (e : BusEvent) : (s.handEvent e).pwmDuty = s.pwmDuty := rfl
@[simp] theorem handEvent_pinLevel (e : BusEvent) : (s.handEvent e).pinLevel = s.pinLevel := rfl
@[simp] theorem handEvent_win (e : BusEvent) : (s.handEvent e).win = s.win := rfl
@[simp] theorem handEvent_fwin (e : BusEvent) : (s.handEvent e).fwin = s.fwin := rfl
@[simp] theorem handEvent_active (e : BusEvent) : (s.handEvent e).active = s.active := rfl
@[simp] theorem handEvent_outQueue (e : BusEvent) : (s.handEvent e).outQueue = s.outQueue := rfl
@[simp] theorem handEvent_busChan (e : BusEvent) : (s.handEvent e).busChan =
    s.busChan ++ [⟨e, pointerAfter e s.curAddr⟩] := rfl
@[simp] theorem handEvent_statusPending (e : BusEvent) : (s.handEvent e).statusPending =
    s.statusPending := rfl
@[simp] theorem handEvent_bridgeUp (e : BusEvent) : (s.handEvent e).bridgeUp = s.bridgeUp := rfl
@[simp] theorem handEvent_expOut (e : BusEvent) : (s.handEvent e).expOut = s.expOut := rfl
@[simp] theorem handEvent_replies (e : BusEvent) : (s.handEvent e).replies = s.replies := rfl
@[simp] theorem handEvent_inputs (e : BusEvent) : (s.handEvent e).inputs = s.inputs := rfl
@[simp] theorem handEvent_draws (e : BusEvent) : (s.handEvent e).draws = s.draws := rfl

end Sys2Proof.Machine.State
end

