-- ==== Sys2Proof/Laws/Ops.lean ====
section
/-! SUPPORT. One lemma for each shared operation that says everything it can do. -/

namespace Sys2Proof.Machine

variable {s t u : State}

/-! ## Guards -/

theorem onBus_up (h : s.bridgeUp = true) : onBus s t = .next t := by simp [onBus, h]

theorem onBus_down (h : s.bridgeUp = false) : onBus s t = .fault .bridgeDown := by simp [onBus, h]

theorem onBus_next (h : onBus s t = .next u) : s.bridgeUp = true ∧ u = t := by
  unfold onBus at h
  split at h
  · next hb => cases h; exact ⟨hb, rfl⟩
  · cases h

theorem onClassifier_free (h : s.statusPending = none) : onClassifier s t = .next t := by
  simp [onClassifier, h]

theorem onClassifier_held {b : Byte} (h : s.statusPending = some b) :
    onClassifier s t = .fault .classifierHeld := by
  simp [onClassifier, h]

theorem onClassifier_next (h : onClassifier s t = .next u) : s.statusPending = none ∧ u = t := by
  unfold onClassifier at h
  split at h
  · cases h
  · next hn => cases h; simpa using hn

theorem onChannel_free {c : Index} (hc : c.val < s.cfg.nChannels.val) (h : s.statusPending = none) :
    onChannel c s t = .next t := by
  simp [onChannel, hc, onClassifier_free h]

theorem onChannel_next {c : Index} (h : onChannel c s t = .next u) :
    c.val < s.cfg.nChannels.val ∧ s.statusPending = none ∧ u = t := by
  unfold onChannel at h
  split at h
  · next hc => exact ⟨hc, onClassifier_next h⟩
  · cases h

theorem onRow_selected {selected : Bool} {o : Host.Outcome State Fault Refusal} (h : selected = true) :
    onRow selected o = o := by
  simp [onRow, h]

theorem onRow_next {selected : Bool} {o : Host.Outcome State Fault Refusal}
    (h : onRow selected o = .next u) : selected = true ∧ o = .next u := by
  unfold onRow at h
  split at h
  · next hs => exact ⟨hs, h⟩
  · cases h

/-! ## The output queue -/

theorem popHead_cons {r : OutputRequest} {rest : List OutputRequest} (h : s.outQueue = r :: rest) :
    s.popHead = { s with outQueue := rest, expOut := expanderWrite s.cfg s.expOut r } := by
  simp [State.popHead, h]

theorem popHead_nil (h : s.outQueue = []) : s.popHead = s := by simp [State.popHead, h]

/-- A POP changes only the queue, which loses its head, and what the expanders hold. -/
theorem popHead_spec (s : State) :
    s.popHead = { s with outQueue := s.outQueue.tail, expOut := s.popHead.expOut } := by
  cases h : s.outQueue with
  | nil => cases s; simp_all [State.popHead]
  | cons r rest => simp [popHead_cons h]

theorem expanderWrite_get (cfg : Config) (out : Bank Byte) (r : OutputRequest) (d : Index) :
    bankGet (expanderWrite cfg out r) d
      = if r.device = d ∧ d.val < cfg.nExpanders.val then r.value else bankGet out d := by
  unfold expanderWrite
  by_cases hd : r.device = d
  · subst hd
    split <;> simp_all
  · split <;> simp [bankGet_bankSet, hd]

/-- A send to a queue with room appends. -/
theorem emitOutput_room {r : OutputRequest} (h : s.outQueue.length < s.cfg.queueCap) :
    s.emitOutput r = s.enqueue r := by
  simp [State.emitOutput, h]

/-- A send to a full queue takes the free choice: a POP and then the append, or the drop. -/
theorem emitOutput_full {r : OutputRequest} (h : ¬ s.outQueue.length < s.cfg.queueCap) :
    s.emitOutput r
      = if Config.freeSendWaits s.draws then (s.popHead.enqueue r).drawn else s.drawn := by
  simp only [State.emitOutput, h, if_false, State.sendFull]
  split <;> rfl

/-- A send changes only the queue, what the expanders hold, and the counter of draws. -/
theorem emitOutput_spec (s : State) (r : OutputRequest) :
    s.emitOutput r
      = { s with
          outQueue := (s.emitOutput r).outQueue
          expOut := (s.emitOutput r).expOut
          draws := (s.emitOutput r).draws } := by
  by_cases h : s.outQueue.length < s.cfg.queueCap
  · simp [emitOutput_room h, State.enqueue]
  · rw [emitOutput_full h]
    split
    · rw [popHead_spec s]; rfl
    · rfl

/-! What POP and a send leave alone, field by field. -/

@[simp] theorem popHead_cfg (s : State) : (s.popHead).cfg = s.cfg := by rw [popHead_spec]
@[simp] theorem popHead_curAddr (s : State) : (s.popHead).curAddr = s.curAddr := by rw [popHead_spec]
@[simp] theorem popHead_sticky (s : State) : (s.popHead).sticky = s.sticky := by rw [popHead_spec]
@[simp] theorem popHead_lastRaw (s : State) : (s.popHead).lastRaw = s.lastRaw := by rw [popHead_spec]
@[simp] theorem popHead_pwmMode (s : State) : (s.popHead).pwmMode = s.pwmMode := by rw [popHead_spec]
@[simp] theorem popHead_pwmDuty (s : State) : (s.popHead).pwmDuty = s.pwmDuty := by rw [popHead_spec]
@[simp] theorem popHead_pinLevel (s : State) : (s.popHead).pinLevel = s.pinLevel := by rw [popHead_spec]
@[simp] theorem popHead_win (s : State) : (s.popHead).win = s.win := by rw [popHead_spec]
@[simp] theorem popHead_fwin (s : State) : (s.popHead).fwin = s.fwin := by rw [popHead_spec]
@[simp] theorem popHead_active (s : State) : (s.popHead).active = s.active := by rw [popHead_spec]
@[simp] theorem popHead_busChan (s : State) : (s.popHead).busChan = s.busChan := by rw [popHead_spec]
@[simp] theorem popHead_statusPending (s : State) : (s.popHead).statusPending = s.statusPending := by rw [popHead_spec]
@[simp] theorem popHead_bridgeUp (s : State) : (s.popHead).bridgeUp = s.bridgeUp := by rw [popHead_spec]
@[simp] theorem popHead_replies (s : State) : (s.popHead).replies = s.replies := by rw [popHead_spec]
@[simp] theorem popHead_inputs (s : State) : (s.popHead).inputs = s.inputs := by rw [popHead_spec]
@[simp] theorem popHead_draws (s : State) : (s.popHead).draws = s.draws := by rw [popHead_spec]

@[simp] theorem emitOutput_cfg (s : State) (r : OutputRequest) : (s.emitOutput r).cfg = s.cfg := by rw [emitOutput_spec]
@[simp] theorem emitOutput_curAddr (s : State) (r : OutputRequest) : (s.emitOutput r).curAddr = s.curAddr := by rw [emitOutput_spec]
@[simp] theorem emitOutput_sticky (s : State) (r : OutputRequest) : (s.emitOutput r).sticky = s.sticky := by rw [emitOutput_spec]
@[simp] theorem emitOutput_lastRaw (s : State) (r : OutputRequest) : (s.emitOutput r).lastRaw = s.lastRaw := by rw [emitOutput_spec]
@[simp] theorem emitOutput_pwmMode (s : State) (r : OutputRequest) : (s.emitOutput r).pwmMode = s.pwmMode := by rw [emitOutput_spec]
@[simp] theorem emitOutput_pwmDuty (s : State) (r : OutputRequest) : (s.emitOutput r).pwmDuty = s.pwmDuty := by rw [emitOutput_spec]
@[simp] theorem emitOutput_pinLevel (s : State) (r : OutputRequest) : (s.emitOutput r).pinLevel = s.pinLevel := by rw [emitOutput_spec]
@[simp] theorem emitOutput_win (s : State) (r : OutputRequest) : (s.emitOutput r).win = s.win := by rw [emitOutput_spec]
@[simp] theorem emitOutput_fwin (s : State) (r : OutputRequest) : (s.emitOutput r).fwin = s.fwin := by rw [emitOutput_spec]
@[simp] theorem emitOutput_active (s : State) (r : OutputRequest) : (s.emitOutput r).active = s.active := by rw [emitOutput_spec]
@[simp] theorem emitOutput_busChan (s : State) (r : OutputRequest) : (s.emitOutput r).busChan = s.busChan := by rw [emitOutput_spec]
@[simp] theorem emitOutput_statusPending (s : State) (r : OutputRequest) : (s.emitOutput r).statusPending = s.statusPending := by rw [emitOutput_spec]
@[simp] theorem emitOutput_bridgeUp (s : State) (r : OutputRequest) : (s.emitOutput r).bridgeUp = s.bridgeUp := by rw [emitOutput_spec]
@[simp] theorem emitOutput_replies (s : State) (r : OutputRequest) : (s.emitOutput r).replies = s.replies := by rw [emitOutput_spec]
@[simp] theorem emitOutput_inputs (s : State) (r : OutputRequest) : (s.emitOutput r).inputs = s.inputs := by rw [emitOutput_spec]

/-! ## The pins -/

/-- When a write to a PWM register is honoured, in the words of 43_register_writes.md R144 and R146. -/
theorem pwmHonoured_iff (cfg : Config) (n : Index) :
    pwmHonoured cfg n = true ↔ bitAt cfg.pwmCapable n = true ∧ ¬(n = 0 ∧ cfg.altAddress = true) := by
  cases h : cfg.altAddress <;> simp [pwmHonoured, h]

/-- When a bit of register 0x20 is honoured, in the words of 43_register_writes.md R142. -/
theorem honoured_iff (cfg : Config) (mode : Bank Bool) (i : Index) :
    honoured cfg mode i = true ↔ bankGet mode i = false ∧ ¬(i = 0 ∧ cfg.altAddress = true) := by
  cases h : cfg.altAddress <;> simp [honoured, h]

/-- A write to a PWM register changes only the pin's mode and duty, if it is honoured. -/
theorem writePwm_spec (s : State) (n : Index) (v : Byte) :
    s.writePwm n v
      = { s with
          pwmMode := if pwmHonoured s.cfg n then bankSet s.pwmMode n true else s.pwmMode
          pwmDuty := if pwmHonoured s.cfg n then bankSet s.pwmDuty n v else s.pwmDuty } := by
  unfold State.writePwm
  split <;> rfl

@[simp] theorem writePwm_cfg (s : State) (n : Index) (v : Byte) : (s.writePwm n v).cfg = s.cfg := by rw [writePwm_spec]
@[simp] theorem writePwm_curAddr (s : State) (n : Index) (v : Byte) : (s.writePwm n v).curAddr = s.curAddr := by rw [writePwm_spec]
@[simp] theorem writePwm_sticky (s : State) (n : Index) (v : Byte) : (s.writePwm n v).sticky = s.sticky := by rw [writePwm_spec]
@[simp] theorem writePwm_lastRaw (s : State) (n : Index) (v : Byte) : (s.writePwm n v).lastRaw = s.lastRaw := by rw [writePwm_spec]
@[simp] theorem writePwm_pinLevel (s : State) (n : Index) (v : Byte) : (s.writePwm n v).pinLevel = s.pinLevel := by rw [writePwm_spec]
@[simp] theorem writePwm_win (s : State) (n : Index) (v : Byte) : (s.writePwm n v).win = s.win := by rw [writePwm_spec]
@[simp] theorem writePwm_fwin (s : State) (n : Index) (v : Byte) : (s.writePwm n v).fwin = s.fwin := by rw [writePwm_spec]
@[simp] theorem writePwm_active (s : State) (n : Index) (v : Byte) : (s.writePwm n v).active = s.active := by rw [writePwm_spec]
@[simp] theorem writePwm_outQueue (s : State) (n : Index) (v : Byte) : (s.writePwm n v).outQueue = s.outQueue := by rw [writePwm_spec]
@[simp] theorem writePwm_busChan (s : State) (n : Index) (v : Byte) : (s.writePwm n v).busChan = s.busChan := by rw [writePwm_spec]
@[simp] theorem writePwm_statusPending (s : State) (n : Index) (v : Byte) : (s.writePwm n v).statusPending = s.statusPending := by rw [writePwm_spec]
@[simp] theorem writePwm_bridgeUp (s : State) (n : Index) (v : Byte) : (s.writePwm n v).bridgeUp = s.bridgeUp := by rw [writePwm_spec]
@[simp] theorem writePwm_expOut (s : State) (n : Index) (v : Byte) : (s.writePwm n v).expOut = s.expOut := by rw [writePwm_spec]
@[simp] theorem writePwm_replies (s : State) (n : Index) (v : Byte) : (s.writePwm n v).replies = s.replies := by rw [writePwm_spec]
@[simp] theorem writePwm_inputs (s : State) (n : Index) (v : Byte) : (s.writePwm n v).inputs = s.inputs := by rw [writePwm_spec]
@[simp] theorem writePwm_draws (s : State) (n : Index) (v : Byte) : (s.writePwm n v).draws = s.draws := by rw [writePwm_spec]

/-! ## The read view -/

/-- The read view depends on the parameters and on sticky alone. -/
theorem readView_congr (hc : t.cfg = s.cfg) (hs : t.sticky = s.sticky) (a : Byte) :
    readView t a = readView s a := by
  simp [readView, hc, hs]

end Sys2Proof.Machine
end

