-- ==== Sys2Proof/Laws/Exec.lean ====
section
/-! SUPPORT. Said once: what each instruction does to the state when it answers a next state (`effect`), when
it answers one (`enabled`), and what a step can do. -/

namespace Sys2Proof.Machine

/-- The state an instruction leaves when it runs. -/
def effect (i : Instr) (s : State) : State :=
  match i with
  | .recv => s
  | .setAddr a => s.latch a
  | .wrLocal v => (s.latch 0x20).driveLocal v
  | .wrExp0 v => (s.latch (expAddress 0)).emitOutput ⟨0, v⟩
  | .wrExp1 v => (s.latch (expAddress 1)).emitOutput ⟨1, v⟩
  | .wrExp2 v => (s.latch (expAddress 2)).emitOutput ⟨2, v⟩
  | .wrExp3 v => (s.latch (expAddress 3)).emitOutput ⟨3, v⟩
  | .wrExp4 v => (s.latch (expAddress 4)).emitOutput ⟨4, v⟩
  | .wrExp5 v => (s.latch (expAddress 5)).emitOutput ⟨5, v⟩
  | .wrExp6 v => (s.latch (expAddress 6)).emitOutput ⟨6, v⟩
  | .wrExp7 v => (s.latch (expAddress 7)).emitOutput ⟨7, v⟩
  | .wrPwm0 v => (s.latch (pwmAddress 0)).writePwm 0 v
  | .wrPwm1 v => (s.latch (pwmAddress 1)).writePwm 1 v
  | .wrPwm2 v => (s.latch (pwmAddress 2)).writePwm 2 v
  | .wrPwm3 v => (s.latch (pwmAddress 3)).writePwm 3 v
  | .wrPwm4 v => (s.latch (pwmAddress 4)).writePwm 4 v
  | .wrPwm5 v => (s.latch (pwmAddress 5)).writePwm 5 v
  | .wrPwm6 v => (s.latch (pwmAddress 6)).writePwm 6 v
  | .wrPwm7 v => (s.latch (pwmAddress 7)).writePwm 7 v
  | .wrIgnored a _ => s.latch a
  | .rdVerMajor => s.reply (readView s 0x00)
  | .rdVerMinor => s.reply (readView s 0x01)
  | .rdVerPatch => s.reply (readView s 0x02)
  | .rdNchan => s.reply (readView s 0x03)
  | .rdNout => s.reply (readView s 0x04)
  | .rdSticky => (s.reply (readView s 0x10)).settleSticky
  | .rdUnknown _ => s.reply sentinel
  | .fin => s
  | .sampleRs c x => sampleRank c x s
  | .sampleZPrime c x => samplePriming c x s
  | .sampleZ c x => sampleScored c x s
  | .noSample _ => s
  | .cycle => s.offerStatus (statusByte s.cfg s.active)
  | .status b => s.acceptStatus b
  | .pop => s.popHead
  | .busErr => s.raiseBusError
  | .restart => (s.restartBridge (Config.freePointer s.draws)).drawn

/-- When an instruction answers a next state. -/
def enabled (i : Instr) (s : State) : Prop :=
  match i with
  | .sampleRs c _ => rankRow s = true ∧ c.val < s.cfg.nChannels.val ∧ s.statusPending = none
  | .sampleZPrime c _ => primingRow c s = true ∧ c.val < s.cfg.nChannels.val ∧ s.statusPending = none
  | .sampleZ c _ => scoredRow c s = true ∧ c.val < s.cfg.nChannels.val ∧ s.statusPending = none
  | .noSample c => c.val < s.cfg.nChannels.val ∧ s.statusPending = none
  | .cycle => s.statusPending = none
  | .status b => s.statusPending = some b
  | .pop => s.outQueue ≠ []
  | .restart => s.bridgeUp = false
  | .recv => s.bridgeUp = true
  | .setAddr _ => s.bridgeUp = true
  | .wrLocal _ => s.bridgeUp = true
  | .wrExp0 _ => s.bridgeUp = true
  | .wrExp1 _ => s.bridgeUp = true
  | .wrExp2 _ => s.bridgeUp = true
  | .wrExp3 _ => s.bridgeUp = true
  | .wrExp4 _ => s.bridgeUp = true
  | .wrExp5 _ => s.bridgeUp = true
  | .wrExp6 _ => s.bridgeUp = true
  | .wrExp7 _ => s.bridgeUp = true
  | .wrPwm0 _ => s.bridgeUp = true
  | .wrPwm1 _ => s.bridgeUp = true
  | .wrPwm2 _ => s.bridgeUp = true
  | .wrPwm3 _ => s.bridgeUp = true
  | .wrPwm4 _ => s.bridgeUp = true
  | .wrPwm5 _ => s.bridgeUp = true
  | .wrPwm6 _ => s.bridgeUp = true
  | .wrPwm7 _ => s.bridgeUp = true
  | .wrIgnored _ _ => s.bridgeUp = true
  | .rdVerMajor => s.bridgeUp = true
  | .rdVerMinor => s.bridgeUp = true
  | .rdVerPatch => s.bridgeUp = true
  | .rdNchan => s.bridgeUp = true
  | .rdNout => s.bridgeUp = true
  | .rdSticky => s.bridgeUp = true
  | .rdUnknown _ => s.bridgeUp = true
  | .fin => s.bridgeUp = true
  | .busErr => s.bridgeUp = true

/-- An instruction that answers a next state was enabled, and the state is its effect. -/
theorem exec_next {i : Instr} {s t : State} (h : exec i s = .next t) : enabled i s ∧ t = effect i s := by
  cases i with
  | sampleRs c x =>
    obtain ⟨hr, ho⟩ := onRow_next h
    obtain ⟨hc, hp, rfl⟩ := onChannel_next ho
    exact ⟨⟨hr, hc, hp⟩, rfl⟩
  | sampleZPrime c x =>
    obtain ⟨hr, ho⟩ := onRow_next h
    obtain ⟨hc, hp, rfl⟩ := onChannel_next ho
    exact ⟨⟨hr, hc, hp⟩, rfl⟩
  | sampleZ c x =>
    obtain ⟨hr, ho⟩ := onRow_next h
    obtain ⟨hc, hp, rfl⟩ := onChannel_next ho
    exact ⟨⟨hr, hc, hp⟩, rfl⟩
  | noSample c =>
    obtain ⟨hc, hp, rfl⟩ := onChannel_next h
    exact ⟨⟨hc, hp⟩, rfl⟩
  | cycle => exact onClassifier_next h
  | status b =>
    simp only [exec, execStatus] at h
    split at h
    · next hp => cases h; exact ⟨hp, rfl⟩
    · cases h
  | pop =>
    simp only [exec, execPop] at h
    split at h
    · cases h
    · next hq => cases h; exact ⟨show s.outQueue ≠ [] by simpa using hq, rfl⟩
  | busErr =>
    simp only [exec, execBusErr] at h
    split at h
    · next hb => cases h; exact ⟨hb, rfl⟩
    · cases h
  | restart =>
    simp only [exec, execRestart] at h
    split at h
    · cases h
    · next hb => cases h; exact ⟨show s.bridgeUp = false by simpa using hb, rfl⟩
  | _ => exact onBus_next h

/-- An enabled instruction answers its effect. -/
theorem exec_enabled {i : Instr} {s : State} (h : enabled i s) : exec i s = .next (effect i s) := by
  cases i with
  | sampleRs c x => exact (onRow_selected h.1).trans (onChannel_free h.2.1 h.2.2)
  | sampleZPrime c x => exact (onRow_selected h.1).trans (onChannel_free h.2.1 h.2.2)
  | sampleZ c x => exact (onRow_selected h.1).trans (onChannel_free h.2.1 h.2.2)
  | noSample c => exact onChannel_free h.1 h.2
  | cycle => exact onClassifier_free h
  | status b => exact if_pos h
  | pop => exact if_neg fun hq => h (List.isEmpty_iff.mp hq)
  | busErr => exact if_pos h
  | restart => exact if_neg fun hb => Bool.noConfusion (hb.symm.trans h)
  | _ => exact onBus_up h

/-- No instruction writes a parameter. -/
@[simp] theorem effect_cfg (i : Instr) (s : State) : (effect i s).cfg = s.cfg := by
  cases i <;> simp [effect, sampleRank, samplePriming, sampleScored]

/-- The front end's channel and the bridge's state are written by BUSERR and RESTART alone. -/
theorem effect_channel {i : Instr} (s : State) (hb : i ≠ .busErr) (hr : i ≠ .restart) :
    (effect i s).busChan = s.busChan ∧ (effect i s).bridgeUp = s.bridgeUp := by
  cases i <;> first | contradiction | exact ⟨rfl, rfl⟩ | simp [effect]

/-- What an instruction leaves in `cur_addr`: the address of a Receive that carries one, the free value of a
restart, and otherwise what stood there. -/
theorem effect_curAddr (i : Instr) (s : State) :
    (effect i s).curAddr
      = match encode i with
        | .bus (.receive (a :: _)) => a
        | .internal .restart => Config.freePointer s.draws
        | _ => s.curAddr := by
  cases i <;> first | rfl | simp [effect, encode, expAddress, pwmAddress]

/-- Running an event that answers a next state ran the instruction it decodes to. -/
theorem runEvent_next {e : Event} {s t : State} (h : runEvent e s = .next t) :
    ∃ i, decode (contextOf s e) e = .ok i ∧ exec i s = .next t := by
  unfold runEvent at h
  split at h
  · next i hi => exact ⟨i, hi, h⟩
  · cases h

theorem keepPointer_next {pointer : Byte} {o : Host.Outcome State Fault Refusal} {t : State}
    (h : keepPointer pointer o = .next t) : ∃ u, o = .next u ∧ t = u.latch pointer := by
  cases o with
  | next u => cases h; exact ⟨u, rfl, rfl⟩
  | fault r => cases h
  | refused r => cases h

/-- The decode stage runs the instruction its event decodes to at the attached address, and the front end's
pointer stays. -/
theorem runHanded_next {h : Handed} {s t : State} (hr : runHanded h s = .next t) :
    ∃ i u, decode (contextOf (s.latch h.address) (.bus h.event)) (.bus h.event) = .ok i
      ∧ exec i (s.latch h.address) = .next u ∧ t = u.latch s.curAddr := by
  obtain ⟨u, hu, ht⟩ := keepPointer_next hr
  obtain ⟨i, hd, hx⟩ := runEvent_next hu
  exact ⟨i, u, hd, hx, ht⟩

/-- No instruction is refused. -/
theorem exec_not_refused (i : Instr) (s : State) (r : Refusal) : exec i s ≠ .refused r := by
  have bus (t : State) : onBus s t ≠ .refused r := by unfold onBus; split <;> simp
  have cls (t : State) : onClassifier s t ≠ .refused r := by unfold onClassifier; split <;> simp
  have chn (c : Index) (t : State) : onChannel c s t ≠ .refused r := by
    unfold onChannel; split <;> simp [cls]
  have row (b : Bool) {o : Host.Outcome State Fault Refusal} (h : o ≠ .refused r) : onRow b o ≠ .refused r := by
    unfold onRow; split <;> simp [h]
  cases i with
  | sampleRs c x => exact row _ (chn _ _)
  | sampleZPrime c x => exact row _ (chn _ _)
  | sampleZ c x => exact row _ (chn _ _)
  | noSample c => exact chn _ _
  | cycle => exact cls _
  | status b => simp only [exec, execStatus]; split <;> simp
  | pop => simp only [exec, execPop]; split <;> simp
  | busErr => simp only [exec, execBusErr]; split <;> simp
  | restart => simp only [exec, execRestart]; split <;> simp
  | _ => exact bus _

/-- While the bridge is up and no Request waits, an event of the alphabet is latched and appended. -/
theorem handOver_free {s : State} {e : BusEvent} {rest : List Input} (hb : s.bridgeUp = true)
    (hl : e.payloadLength ≤ 2) (hw : requestWaits s.busChan = false) :
    handOver s e rest = .moved ({ s with inputs := rest }.handEvent e) := by
  simp [handOver, hb, hl, hw]

/-- While a Request waits for its reply the front end holds it, and the decode stage has the turn. -/
theorem handOver_holds {s : State} {e : BusEvent} {rest : List Input} (hb : s.bridgeUp = true)
    (hl : e.payloadLength ≤ 2) (hw : requestWaits s.busChan = true) : handOver s e rest = takeBusEvent s := by
  simp [handOver, hb, hl, hw]

/-- A `bus_chan` in which a Request waits is not empty. -/
theorem requestWaits_cons {chan : List Handed} (hw : requestWaits chan = true) : ∃ h l, chan = h :: l := by
  cases chan with
  | nil => cases hw
  | cons h l => exact ⟨h, l, rfl⟩

/-- The inputs left by a turn of the decode stage: its own turn is used up; an event that the front end does
not take yet, because a Request waits, stays. -/
def decodeTurn (s : State) (left : List Input) : Prop :=
  s.inputs = .decodeStage :: left
    ∨ (∃ e rest, s.inputs = .deliver e :: rest) ∧ left = s.inputs ∧ requestWaits s.busChan = true

/-- What a step can do when it answers a next state: nothing, a hand-over, an idle turn of the decode stage, a
turn of the decode stage on the event at the head of `bus_chan`, or an event that does not come from the bus. -/
theorem step_cases {s t : State} (h : step s = .next t) :
    (s.inputs = [] ∧ t = s)
    ∨ (∃ e rest, s.inputs = .deliver e :: rest ∧ s.bridgeUp = true ∧ e.payloadLength ≤ 2
        ∧ requestWaits s.busChan = false ∧ t = { s with inputs := rest }.handEvent e)
    ∨ (∃ rest, s.inputs = .decodeStage :: rest ∧ s.busChan = [] ∧ t = { s with inputs := rest })
    ∨ (∃ e chan left i u, decodeTurn s left ∧ s.busChan = e :: chan
        ∧ decode (contextOf ({ s with inputs := left, busChan := chan }.latch e.address) (.bus e.event))
            (.bus e.event) = .ok i
        ∧ exec i ({ s with inputs := left, busChan := chan }.latch e.address) = .next u
        ∧ t = u.latch s.curAddr)
    ∨ (∃ e rest i, s.inputs = .internal e :: rest
        ∧ decode (contextOf { s with inputs := rest } (.internal e)) (.internal e) = .ok i
        ∧ exec i { s with inputs := rest } = .next t) := by
  cases hin : s.inputs with
  | nil =>
    simp only [step, fetch, hin] at h
    cases h
    exact .inl ⟨rfl, rfl⟩
  | cons input rest =>
    refine .inr ?_
    cases input with
    | deliver e =>
      simp only [step, fetch, hin] at h
      by_cases hb : s.bridgeUp = true
      · by_cases hl : e.payloadLength ≤ 2
        · cases hw : requestWaits s.busChan with
          | false =>
            rw [handOver_free hb hl hw] at h
            cases h
            exact .inl ⟨e, rest, rfl, hb, hl, rfl, rfl⟩
          | true =>
            obtain ⟨e', chan, hch⟩ := requestWaits_cons hw
            rw [handOver_holds hb hl hw] at h
            simp only [takeBusEvent, hch] at h
            obtain ⟨i, u, hd, hx, ht⟩ := runHanded_next h
            refine .inr (.inr (.inl ⟨e', chan, s.inputs, i, u, .inr ⟨⟨e, rest, hin⟩, rfl, hw⟩, hch, hd, hx, ht⟩))
        · simp [handOver, hb, hl] at h
      · simp [handOver, hb] at h
    | decodeStage =>
      cases hch : s.busChan with
      | nil =>
        simp only [step, fetch, hin, takeBusEvent, hch] at h
        cases h
        exact .inr (.inl ⟨rest, rfl, rfl, rfl⟩)
      | cons e chan =>
        simp only [step, fetch, hin, takeBusEvent, hch] at h
        obtain ⟨i, u, hd, hx, ht⟩ := runHanded_next h
        exact .inr (.inr (.inl ⟨e, chan, rest, i, u, .inl hin, rfl, hd, hx, ht⟩))
    | internal e =>
      simp only [step, fetch, hin] at h
      obtain ⟨i, hd, hx⟩ := runEvent_next h
      exact .inr (.inr (.inr ⟨e, rest, i, rfl, hd, hx⟩))

theorem andThen_next {o : Host.Outcome State Fault Refusal} {f : State → Host.Outcome State Fault Refusal}
    {t : State} (h : andThen o f = .next t) : ∃ u, o = .next u ∧ f u = .next t := by
  cases o with
  | next u => exact ⟨u, rfl, h⟩
  | fault r => cases h
  | refused r => cases h

/-- A property that every instruction keeps, a run keeps. -/
theorem runInstrs_keeps {P : State → Prop} (hstep : ∀ i s t, exec i s = .next t → P s → P t)
    {is : List Instr} {s t : State} (h : runInstrs is s = .next t) (hs : P s) : P t := by
  induction is generalizing s with
  | nil => cases h; exact hs
  | cons i rest ih =>
    obtain ⟨u, hu, hrest⟩ := andThen_next h
    exact ih hrest (hstep i s u hu hs)

end Sys2Proof.Machine
end

