-- ==== Sys2Proof/Laws/PerInstr.lean ====
section
/-! SUPPORT. Statements made per instruction: every instruction's event is in the alphabet, a bus event of at
most two payload bytes (30_encoding.md R61). -/

namespace Sys2Proof.Laws.EncodesInAlphabet

/-- The event of the instruction, if it is a bus event, carries at most two payload bytes. -/
def Statement (i : Instr) : Prop := ∀ e, encode i = .bus e → e.payloadLength ≤ 2

/-- A list of at most two bytes is a payload of the alphabet. -/
theorem of_encode {i : Instr} {e : BusEvent} (h : encode i = .bus e) (hl : e.payloadLength ≤ 2) :
    Statement i := by
  intro e' h'
  rw [h] at h'
  cases h'
  exact hl

/-- An instruction whose event does not come from the bus has no payload. -/
theorem of_internal {i : Instr} {e : InternalEvent} (h : encode i = .internal e) : Statement i := by
  intro e' h'
  rw [h] at h'
  cases h'

theorem recv : Statement .recv := of_encode rfl (by decide)
theorem setAddr (a : Byte) : Statement (.setAddr a) := of_encode rfl (by simp [BusEvent.payloadLength])
theorem wrLocal (v : Byte) : Statement (.wrLocal v) := of_encode rfl (by simp [BusEvent.payloadLength])
theorem wrExp0 (v : Byte) : Statement (.wrExp0 v) := of_encode rfl (by simp [BusEvent.payloadLength])
theorem wrExp1 (v : Byte) : Statement (.wrExp1 v) := of_encode rfl (by simp [BusEvent.payloadLength])
theorem wrExp2 (v : Byte) : Statement (.wrExp2 v) := of_encode rfl (by simp [BusEvent.payloadLength])
theorem wrExp3 (v : Byte) : Statement (.wrExp3 v) := of_encode rfl (by simp [BusEvent.payloadLength])
theorem wrExp4 (v : Byte) : Statement (.wrExp4 v) := of_encode rfl (by simp [BusEvent.payloadLength])
theorem wrExp5 (v : Byte) : Statement (.wrExp5 v) := of_encode rfl (by simp [BusEvent.payloadLength])
theorem wrExp6 (v : Byte) : Statement (.wrExp6 v) := of_encode rfl (by simp [BusEvent.payloadLength])
theorem wrExp7 (v : Byte) : Statement (.wrExp7 v) := of_encode rfl (by simp [BusEvent.payloadLength])
theorem wrPwm0 (v : Byte) : Statement (.wrPwm0 v) := of_encode rfl (by simp [BusEvent.payloadLength])
theorem wrPwm1 (v : Byte) : Statement (.wrPwm1 v) := of_encode rfl (by simp [BusEvent.payloadLength])
theorem wrPwm2 (v : Byte) : Statement (.wrPwm2 v) := of_encode rfl (by simp [BusEvent.payloadLength])
theorem wrPwm3 (v : Byte) : Statement (.wrPwm3 v) := of_encode rfl (by simp [BusEvent.payloadLength])
theorem wrPwm4 (v : Byte) : Statement (.wrPwm4 v) := of_encode rfl (by simp [BusEvent.payloadLength])
theorem wrPwm5 (v : Byte) : Statement (.wrPwm5 v) := of_encode rfl (by simp [BusEvent.payloadLength])
theorem wrPwm6 (v : Byte) : Statement (.wrPwm6 v) := of_encode rfl (by simp [BusEvent.payloadLength])
theorem wrPwm7 (v : Byte) : Statement (.wrPwm7 v) := of_encode rfl (by simp [BusEvent.payloadLength])
theorem wrIgnored (a v : Byte) : Statement (.wrIgnored a v) := of_encode rfl (by simp [BusEvent.payloadLength])
theorem rdVerMajor : Statement .rdVerMajor := of_encode rfl (by decide)
theorem rdVerMinor : Statement .rdVerMinor := of_encode rfl (by decide)
theorem rdVerPatch : Statement .rdVerPatch := of_encode rfl (by decide)
theorem rdNchan : Statement .rdNchan := of_encode rfl (by decide)
theorem rdNout : Statement .rdNout := of_encode rfl (by decide)
theorem rdSticky : Statement .rdSticky := of_encode rfl (by decide)
theorem rdUnknown (a : Byte) : Statement (.rdUnknown a) := of_encode rfl (by simp [BusEvent.payloadLength])
theorem fin : Statement .fin := of_encode rfl (by decide)
theorem sampleRs (c : Index) (x : Raw) : Statement (.sampleRs c x) := of_internal rfl
theorem sampleZPrime (c : Index) (x : Raw) : Statement (.sampleZPrime c x) := of_internal rfl
theorem sampleZ (c : Index) (x : Raw) : Statement (.sampleZ c x) := of_internal rfl
theorem noSample (c : Index) : Statement (.noSample c) := of_internal rfl
theorem cycle : Statement .cycle := of_internal rfl
theorem status (b : Byte) : Statement (.status b) := of_internal rfl
theorem pop : Statement .pop := of_internal rfl
theorem busErr : Statement .busErr := of_internal rfl
theorem restart : Statement .restart := of_internal rfl

end Sys2Proof.Laws.EncodesInAlphabet
end

