-- ==== Sys2Proof/Laws/Window.lean ====
section
/-! SUPPORT. The windows: insertion, and what the detectors' measures say about the entries. -/

namespace Sys2Proof.Machine

/-- A window within its size stays within it. -/
theorem push_length_le {α : Type} (w : List α) (v : α) {size : Nat} (h : w.length ≤ size) :
    (push w v size).length ≤ size := by
  unfold push
  split <;> simp_all

theorem push_length {α : Type} (w : List α) (v : α) (size : Nat) :
    (push w v size).length = if size < w.length + 1 then w.length else w.length + 1 := by
  unfold push
  split <;> simp_all

/-- Every entry of a window after insertion was there or is the new one. -/
theorem mem_push {α : Type} {w : List α} {v x : α} {size : Nat} (h : x ∈ push w v size) :
    x ∈ w ∨ x = v := by
  unfold push at h
  split at h
  · simpa using List.mem_of_mem_drop h
  · simpa using h

/-- The new entry is in the window, if the window has room for one. -/
theorem self_mem_push {α : Type} (w : List α) (v : α) {size : Nat} (h : 1 ≤ size) : v ∈ push w v size := by
  unfold push
  split
  · next hs =>
    have hw : 1 ≤ w.length := by simp at hs; omega
    rw [List.drop_append_of_le_length hw]
    simp
  · simp

theorem foldl_max_spec (l : List Int) (a : Int) :
    (∀ v ∈ a :: l, v ≤ l.foldl max a) ∧ l.foldl max a ∈ a :: l := by
  induction l generalizing a with
  | nil => simp
  | cons b l ih =>
    obtain ⟨hle, hmem⟩ := ih (max a b)
    have hab := hle (max a b) (by simp)
    refine ⟨?_, ?_⟩
    · intro v hv
      simp only [List.mem_cons] at hv
      obtain rfl | rfl | hv := hv
      · exact le_trans (le_max_left _ _) hab
      · exact le_trans (le_max_right _ _) hab
      · exact hle v (by simp [hv])
    · rcases max_choice a b with h | h <;> simp only [List.foldl_cons, h] at hmem ⊢ <;>
        simp only [List.mem_cons] at hmem ⊢ <;> tauto

theorem foldl_min_spec (l : List Int) (a : Int) :
    (∀ v ∈ a :: l, l.foldl min a ≤ v) ∧ l.foldl min a ∈ a :: l := by
  induction l generalizing a with
  | nil => simp
  | cons b l ih =>
    obtain ⟨hle, hmem⟩ := ih (min a b)
    have hab := hle (min a b) (by simp)
    refine ⟨?_, ?_⟩
    · intro v hv
      simp only [List.mem_cons] at hv
      obtain rfl | rfl | hv := hv
      · exact le_trans hab (min_le_left _ _)
      · exact le_trans hab (min_le_right _ _)
      · exact hle v (by simp [hv])
    · rcases min_choice a b with h | h <;> simp only [List.foldl_cons, h] at hmem ⊢ <;>
        simp only [List.mem_cons] at hmem ⊢ <;> tauto

/-- The spread is the largest difference of two entries: it bounds each, and two entries reach it. -/
theorem spread_spec {l : List Int} (h : l ≠ []) :
    (∀ a ∈ l, ∀ b ∈ l, a - b ≤ spread l) ∧ ∃ a ∈ l, ∃ b ∈ l, a - b = spread l := by
  cases l with
  | nil => exact absurd rfl h
  | cons x l =>
    obtain ⟨hmax, hmaxIn⟩ := foldl_max_spec l x
    obtain ⟨hmin, hminIn⟩ := foldl_min_spec l x
    refine ⟨fun a ha b hb => ?_, _, hmaxIn, _, hminIn, rfl⟩
    have h1 := hmax a ha
    have h2 := hmin b hb
    show a - b ≤ l.foldl max x - l.foldl min x
    omega

end Sys2Proof.Machine
end

