-- ==== Sys2Proof/Tests/Slice0.lean ====
section
/-! SUPPORT. The model's own tests: expected results are the vectors of spec/95_test_vectors.md (V-…, S…, P…)
or words written out from the encodings of 30_encoding.md; then one witness for the hypotheses of every
statement. -/

namespace Sys2Proof.Tests

open Sys2Proof Sys2Proof.Machine

/-! ## A small board and small states -/

/-- The conventions of 95_test_vectors.md. -/
def cfg : Config where
  nChannels := 8
  nExpanders := 2
  altAddress := false
  primaryAddr := 0x10
  altAddr := 0x11
  fwMajor := 1
  fwMinor := 2
  fwPatch := 3
  pwmCapable := 0xFF
  periodTop := 1024
  pinReset := 0x00
  strategy := .rankSpread
  wRs := 9
  spreadThreshold := 25
  delta := 3
  wZ := 20
  zThreshold := Config.fifteenHalves
  zInfluence := Config.oneHalf
  sampleSigned := false
  queueCap := 8

def cfgAlt : Config := { cfg with altAddress := true }
def cfgZ : Config := { cfg with strategy := .zscore }

/-- A board after boot and the first listen, `cur_addr` at `a`. -/
def listening (c : Config) (a : Byte) : State := { State.boot c a with bridgeUp := true }

def up : State := listening cfg 0x00

/-- One thing about the next state, if there is one. -/
def seen {α : Type} (o : Host.Outcome State Fault Refusal) (f : State → α) : Option α :=
  match o with
  | .next t => some (f t)
  | _ => none

/-- The fault an outcome ends in, if it does. -/
def stopped (o : Host.Outcome State Fault Refusal) : Option Fault :=
  match o with
  | .fault r => some r
  | _ => none

/-- Channel 0's window. -/
def withWindow (c : Config) (w : List Raw) : State :=
  { listening c 0x00 with win := bankSet (State.boot c 0x00).win 0 w }

/-- Channel 0's z-score window. -/
def withZWindow (w : List Rat) : State :=
  { listening cfgZ 0x00 with fwin := bankSet (State.boot cfgZ 0x00).fwin 0 w }

/-- (100, 104) ten times. -/
def pairs : List Rat := (List.replicate 10 [(100 : Rat), 104]).flatten

def fullQueue : State :=
  { listening cfg 0x00 with outQueue := [⟨0, 1⟩, ⟨0, 2⟩, ⟨0, 3⟩, ⟨0, 4⟩, ⟨0, 5⟩, ⟨0, 6⟩, ⟨0, 7⟩, ⟨0, 8⟩] }

/-! ## Well-formedness: an ill-formed term for each check, refused -/

theorem test_wf_refuses_ignored_write_at_local : (Instr.wrIgnored 0x20 0x01).wf = false := by decide
theorem test_wf_refuses_ignored_write_at_pwm7 : (Instr.wrIgnored 0x37 0x01).wf = false := by decide
theorem test_wf_refuses_unknown_read_at_sticky : (Instr.rdUnknown 0x10).wf = false := by decide
theorem test_wf_refuses_unknown_read_at_nout : (Instr.rdUnknown 0x04).wf = false := by decide
theorem test_on_board_refuses_absent_channel :
    [Instr.sampleRs 4 0x0064, .sampleZPrime 4 0x0064, .sampleZ 7 0x0064, .noSample 4].map
      (Instr.onBoard { cfg with nChannels := 4 }) = [false, false, false, false] := by decide
theorem test_config_wf : cfg.wf = true := by simp [Config.wf, cfg, Config.fifteenHalves, Config.oneHalf]; decide
theorem test_config_wf_refuses_delta_above_window : ({ cfg with delta := 10 } : Config).wf = false := by
  simp [Config.wf, cfg]

/-! ## Decoding: a word for every constructor, written out from its encoding (30_encoding.md R61, R66) -/

theorem test_decode_receive_formats :
    decodeReceive [] = .ok .recv ∧ decodeReceive [0b01111110] = .ok (.setAddr 0x7E)
      ∧ decodeReceive [0b00100001, 0b00000001, 0b00000010] = .error (.payloadTooLong 3) := by decide
theorem test_decode_local_and_expanders :
    [decodeReceive [0b00100000, 0b10100101], decodeReceive [0b00100001, 0b00001111],
      decodeReceive [0b00100010, 0b01011010], decodeReceive [0b00100011, 0b00000011],
      decodeReceive [0b00100100, 0b00000100], decodeReceive [0b00100101, 0b00010001],
      decodeReceive [0b00100110, 0b00000110], decodeReceive [0b00100111, 0b00000111],
      decodeReceive [0b00101000, 0b10000000]]
    = [.ok (.wrLocal 0xA5), .ok (.wrExp0 0x0F), .ok (.wrExp1 0x5A), .ok (.wrExp2 0x03), .ok (.wrExp3 0x04),
      .ok (.wrExp4 0x11), .ok (.wrExp5 0x06), .ok (.wrExp6 0x07), .ok (.wrExp7 0x80)] := by decide
theorem test_decode_pwm_and_ignored :
    [decodeReceive [0b00110000, 0b10000000], decodeReceive [0b00110001, 0b11001000],
      decodeReceive [0b00110010, 0b00000010], decodeReceive [0b00110011, 0b00000011],
      decodeReceive [0b00110100, 0b00000100], decodeReceive [0b00110101, 0b00000101],
      decodeReceive [0b00110110, 0b00000110], decodeReceive [0b00110111, 0b11111111],
      decodeReceive [0b00010000, 0b00000000], decodeReceive [0b00101001, 0b00000001]]
    = [.ok (.wrPwm0 0x80), .ok (.wrPwm1 200), .ok (.wrPwm2 2), .ok (.wrPwm3 3), .ok (.wrPwm4 4),
      .ok (.wrPwm5 5), .ok (.wrPwm6 6), .ok (.wrPwm7 255), .ok (.wrIgnored 0x10 0), .ok (.wrIgnored 0x29 1)] := by
  decide
theorem test_decode_requests :
    [0b00000000, 0b00000001, 0b00000010, 0b00000011, 0b00000100, 0b00010000, 0b00100000].map decodeRead
    = [.rdVerMajor, .rdVerMinor, .rdVerPatch, .rdNchan, .rdNout, .rdSticky, .rdUnknown 0x20] := by decide
theorem test_decode_finish_and_internal :
    decodeBus 0x10 .finish = .ok .fin
    ∧ [InternalEvent.sample 3 0x0046, .noSample 5, .cycle, .status 0x08, .pop, .busErr, .restart].map
        (decodeInternal .rankSpread)
      = [.sampleRs 3 0x0046, .noSample 5, .cycle, .status 0x08, .pop, .busErr, .restart]
    ∧ decodeInternal .zPriming (.sample 3 0x0046) = .sampleZPrime 3 0x0046
    ∧ decodeInternal .zFull (.sample 3 0x0046) = .sampleZ 3 0x0046 := by decide
theorem test_table_words :
    [decodeTableWord 16 0xA520, decodeTableWord 16 0x0028, decodeTableWord 16 0xC831, decodeTableWord 8 0x10,
      decodeTableWord 24 0x20]
    = [some (.wrLocal 0xA5), some (.wrExp7 0), some (.wrPwm1 200), some .rdSticky, none] := by decide

/-! ## The step -/

theorem test_step_runs_table_word_after_reset :
    seen (step (State.reset.withFetchWord 16 0x5A22)) (·.outQueue) = some [⟨1, 0x5A⟩] := by decide
theorem test_step_hands_over :
    seen (step { up with inputs := [.deliver (.receive [0x10])] }) (fun t => (t.busChan, t.curAddr))
      = some ([⟨.receive [0x10], 0x10⟩], 0x10) := by decide
/-- 30_encoding.md R62, R64: a Request carries the address latched before it. -/
theorem test_step_attaches_pointer :
    seen (step { listening cfg 0x10 with inputs := [.deliver .request], busChan := [⟨.receive [0x10], 0x10⟩] })
      (fun t => (t.busChan, t.curAddr)) = some ([⟨.receive [0x10], 0x10⟩, ⟨.request, 0x10⟩], 0x10) := by decide
/-- 20_memory.md R57: a Request is held until its reply exists; here it is answered and the next event stays. -/
theorem test_step_front_end_holds_request :
    seen (step { listening cfg 0x04 with inputs := [.deliver (.receive [0x03])], busChan := [⟨.request, 0x04⟩] })
      (fun t => (t.replies, t.busChan, t.inputs, t.curAddr))
      = some ([[0x10]], [], [.deliver (.receive [0x03])], 0x04) := by decide
/-- A write handled after a later address has been handed over leaves the front end's pointer there. -/
theorem test_step_decode_stage_keeps_pointer :
    seen (step { listening cfg 0x03 with
        inputs := [.decodeStage], busChan := [⟨.receive [0x20, 0xA5], 0x20⟩, ⟨.receive [0x03], 0x03⟩] })
      (fun t => (t.pinLevel, t.curAddr, t.busChan)) = some (0xA5, 0x03, [⟨.receive [0x03], 0x03⟩]) := by decide
/-- V-B10. -/
theorem test_step_bridge_down :
    stopped (step { State.boot cfg 0x00 with inputs := [.deliver (.receive [0x10])] }) = some .bridgeDown := by
  decide
/-- The first listen after boot (10_state.md R26). -/
theorem test_step_first_listen :
    seen (step { State.reset with inputs := [.internal .restart] }) (·.bridgeUp) = some true := by decide

/-! ## Bus events -/

/-- V-B1. -/
theorem test_recv_keeps_pointer : seen (exec .recv (listening cfg 0x10)) (·.curAddr) = some 0x10 := by decide
/-- V-B2. -/
theorem test_set_addr : seen (exec (.setAddr 0x03) up) (·.curAddr) = some 0x03 := by decide
/-- V-B5. -/
theorem test_fin_keeps_pointer : seen (exec .fin (listening cfg 0x03)) (·.curAddr) = some 0x03 := by decide

/-! ## Reads -/

/-- V-R1 to V-R4, V-R6. -/
theorem test_constant_reads :
    [Instr.rdVerMajor, .rdVerMinor, .rdVerPatch, .rdNchan, .rdNout].map (fun i => seen (exec i up) (·.replies))
      = [some [[0x01]], some [[0x02]], some [[0x03]], some [[0x08]], some [[0x10]]] := by decide
/-- V-R5, V-R6: the ends of the ranges. -/
theorem test_counts_at_their_ends :
    readView (listening { cfg with nChannels := 0, nExpanders := 0 } 0x00) 0x03 = [0x00]
    ∧ readView (listening { cfg with nExpanders := 0 } 0x00) 0x04 = [0x00]
    ∧ readView (listening { cfg with nExpanders := 8 } 0x00) 0x04 = [0x40] := by decide
/-- V-R8. -/
theorem test_sticky_read :
    seen (exec .rdSticky { up with sticky := 0x03, lastRaw := 0x02 }) (fun t => (t.replies, t.sticky, t.lastRaw))
      = some ([[0x03]], 0x02, 0x02) := by decide
/-- V-R11. -/
theorem test_unknown_read : seen (exec (.rdUnknown 0x20) up) (·.replies) = some [[0xFF, 0xFF]] := by decide

/-! ## Writes -/

/-- V-W1. -/
theorem test_local_write : seen (exec (.wrLocal 0xA5) up) (·.pinLevel) = some 0xA5 := by decide
/-- V-W4. -/
theorem test_local_write_at_alternate_address :
    seen (exec (.wrLocal 0xFF)
        { listening cfgAlt 0x00 with pwmMode := bankSet (State.boot cfg 0x00).pwmMode 1 true })
      (·.pinLevel) = some 0xFC := by decide
/-- V-W11, and the index of each register (30_encoding.md R65). -/
theorem test_expander_writes :
    [Instr.wrExp0 9, .wrExp1 9, .wrExp2 9, .wrExp3 9, .wrExp4 9, .wrExp5 9, .wrExp6 9, .wrExp7 9].map
        (fun i => seen (exec i up) (fun t => (t.curAddr, t.outQueue)))
      = [some (0x21, [⟨0, 9⟩]), some (0x22, [⟨1, 9⟩]), some (0x23, [⟨2, 9⟩]), some (0x24, [⟨3, 9⟩]),
        some (0x25, [⟨4, 9⟩]), some (0x26, [⟨5, 9⟩]), some (0x27, [⟨6, 9⟩]), some (0x28, [⟨7, 9⟩])] := by
  decide
/-- V-Q6, both branches. -/
theorem test_send_to_full_queue :
    (fullQueue.sendFull false ⟨0, 0x99⟩).outQueue = fullQueue.outQueue
    ∧ (fullQueue.sendFull true ⟨0, 0x99⟩).outQueue = fullQueue.outQueue.tail ++ [⟨0, 0x99⟩]
    ∧ bankGet (fullQueue.sendFull true ⟨0, 0x99⟩).expOut 0 = 0x01 := by decide
/-- V-W5, V-W10 and the pin of each register. -/
theorem test_pwm_writes :
    [Instr.wrPwm0 200, .wrPwm1 200, .wrPwm2 200, .wrPwm3 200, .wrPwm4 200, .wrPwm5 200, .wrPwm6 200,
        .wrPwm7 200].map (fun i => seen (exec i up) (fun t => indices.filter fun n => decide (pinOut t n = .pwm 800)))
      = [some [0], some [1], some [2], some [3], some [4], some [5], some [6], some [7]] := by decide
/-- V-W7, V-W9. -/
theorem test_pwm_write_not_honoured :
    seen (exec (.wrPwm1 200) (listening { cfg with pwmCapable := 0x00 } 0x00))
        (fun t => (t.curAddr, bankGet t.pwmMode 1)) = some (0x31, false)
    ∧ seen (exec (.wrPwm0 0x80) (listening cfgAlt 0x00)) (fun t => (bankGet t.pwmMode 0, bankGet t.pwmDuty 0))
      = some (false, 0x00) := by decide
/-- V-W13. -/
theorem test_ignored_write :
    seen (exec (.wrIgnored 0x10 0x00) { up with sticky := 0x08 }) (fun t => (t.curAddr, t.sticky))
      = some (0x10, 0x08) := by decide
/-- The table of 95_test_vectors.md 2.6. -/
theorem test_pwm_target :
    [0, 1, 127, 128, 200, 255].map (pwmTarget { cfg with periodTop := 1000 }) = [0, 3, 496, 500, 781, 996] := by
  decide

/-! ## The classifier -/

/-- V-RS1, V-RS2, V-RS4, V-RS6, V-RS7: windows before the last sample, the sample, the flag. -/
theorem test_rank_spread_flags :
    [([100, 100, 100, 100, 100, 100, 100, 100], 70), ([100, 100, 100, 100, 100, 100, 100, 100], 75),
      ([100, 100, 100, 100, 100, 100, 100], 70), ([100, 100, 100, 100, 100, 100, 70, 70], 70),
      ([100, 100, 100, 100, 100, 100, 100, 60], 70)].map
        (fun p => seen (exec (.sampleRs 0 p.2) (withWindow cfg p.1)) (fun t => bankGet t.active 0))
      = [some true, some false, some true, some false, some true] := by decide
/-- V-RS15, V-RS16, and the window after V-RS14's eviction. -/
theorem test_rank_spread_signed_and_evicts :
    seen (exec (.sampleRs 0 0xFFFF) (withWindow { cfg with sampleSigned := true } (List.replicate 8 100)))
      (fun t => bankGet t.active 0) = some true
    ∧ seen (exec (.sampleRs 0 0xFFFF) (withWindow cfg (List.replicate 8 100))) (fun t => bankGet t.active 0)
      = some false
    ∧ seen (exec (.sampleRs 0 100) (withWindow cfg (70 :: List.replicate 8 100))) (fun t => bankGet t.win 0)
      = some (List.replicate 9 100) := by decide
/-- V-Z11. -/
theorem test_z_priming :
    seen (exec (.sampleZPrime 0 5000) (withZWindow (pairs.take 19)))
        (fun t => ((bankGet t.fwin 0).length, bankGet t.active 0)) = some (20, false) := by decide +kernel
/-- V-Z1, V-Z2: the flag, and the value inserted. -/
theorem test_z_scored :
    seen (exec (.sampleZ 0 117) (withZWindow pairs)) (fun t => (bankGet t.active 0, (bankGet t.fwin 0).getLast?))
      = some (false, some 117)
    ∧ seen (exec (.sampleZ 0 118) (withZWindow pairs)) (fun t => (bankGet t.active 0, (bankGet t.fwin 0).getLast?))
      = some (true, some 111) := by decide +kernel
/-- V-Z9: non-integer statistics; V-Z4: a dip. -/
theorem test_z_scored_statistics :
    mean ((104 :: (pairs.take 18)) ++ [111]) = 2051 / 20 ∧ popvar ((104 :: (pairs.take 18)) ++ [111]) = 3019 / 400
    ∧ zActive cfgZ pairs 86 = true := by decide +kernel
/-- V-C6. -/
theorem test_no_sample_keeps_flag :
    seen (exec (.noSample 3) { up with active := bankSet up.active 3 true }) (fun t => bankGet t.active 3)
      = some true := by decide
/-- V-C3, V-C4. -/
theorem test_cycle :
    seen (exec .cycle { up with active := bankSet (bankSet up.active 0 true) 7 true }) (·.statusPending)
      = some (some 0x81)
    ∧ seen (exec .cycle { listening { cfg with nChannels := 4 } 0x00 with active := Vector.replicate 8 true })
        (·.statusPending) = some (some 0x0F) := by decide
/-- V-C8. -/
theorem test_classifier_held :
    stopped (exec (.sampleRs 0 100) { up with statusPending := some 0x08 }) = some .classifierHeld := by decide

/-! ## Status, queue, failure -/

/-- V-S1. -/
theorem test_status :
    seen (exec (.status 0x02) { up with sticky := 0x01, lastRaw := 0x01, statusPending := some 0x02 })
      (fun t => (t.sticky, t.lastRaw, t.statusPending)) = some (0x03, 0x02, none) := by decide
/-- V-E2: while the bridge is down. -/
theorem test_status_while_down :
    seen (exec (.status 0x04) { State.boot cfg 0x00 with sticky := 0x08, statusPending := some 0x04 })
      (fun t => (t.sticky, t.lastRaw)) = some (0x0C, 0x04) := by decide
/-- V-Q1, V-Q2. -/
theorem test_pop :
    seen (exec .pop { up with outQueue := [⟨1, 0x5A⟩] }) (fun t => (t.outQueue, bankGet t.expOut 1)) = some ([], 0x5A)
    ∧ seen (exec .pop { up with outQueue := [⟨4, 0x11⟩] }) (fun t => (t.outQueue, bankGet t.expOut 4))
      = some ([], 0x00) := by decide
/-- V-Q4. -/
theorem test_pop_empty : stopped (exec .pop up) = some .popEmptyQueue := by decide
/-- V-E1. -/
theorem test_bus_error :
    seen (exec .busErr { up with sticky := 0x08, pinLevel := 0xA4, busChan := [⟨.request, 0x10⟩] })
      (fun t => (t.bridgeUp, t.busChan, t.sticky, t.pinLevel)) = some (false, [], 0x08, 0xA4) := by decide
/-- V-E5. -/
theorem test_bus_error_while_down : stopped (exec .busErr (State.boot cfg 0x00)) = some .busErrWhileDown := by
  decide
/-- V-E3. -/
theorem test_restart :
    seen (exec .restart { State.boot cfg 0x00 with sticky := 0x0C, pinLevel := 0xA4 })
      (fun t => (t.bridgeUp, t.sticky, t.pinLevel)) = some (true, 0x0C, 0xA4) := by decide
/-- V-E6. -/
theorem test_restart_while_up : stopped (exec .restart up) = some .restartWhileUp := by decide

/-! ## Witnesses: for every statement with hypotheses, a concrete state and operands that meet them together,
each clause at an end of its range -/

theorem witness_DecodeOfEncodeIsInstruction :
    ((Instr.wrIgnored 0x1F 0xFF).wf = true ∧ (Instr.wrIgnored 0x1F 0xFF).selectedIn ⟨0x10, .rankSpread⟩ = true)
    ∧ ((Instr.rdUnknown 0x0F).wf = true ∧ (Instr.rdUnknown 0x0F).selectedIn ⟨0x0F, .zFull⟩ = true)
    ∧ ((Instr.sampleZ 7 0x8000).wf = true ∧ (Instr.sampleZ 7 0x8000).selectedIn ⟨0x00, .zFull⟩ = true) := by
  decide
theorem witness_EncodeOfDecodeIsEvent :
    decode ⟨0x10, .rankSpread⟩ (.bus .request) = .ok .rdSticky
    ∧ decode ⟨0x10, .rankSpread⟩ (.bus (.receive [0x37, 0xFF])) = .ok (.wrPwm7 0xFF) := by decide
theorem witness_OnlyLongReceiveIsRefused :
    3 ≤ [0x21#8, 0x01, 0x02].length
    ∧ (∀ p, Event.bus (.receive [0x21, 0x01]) = .bus (.receive p) → p.length ≤ 2)
    ∧ (let s := { up with inputs := [.deliver (.receive [0x21, 0x01, 0x02])] }
       s.bridgeUp = true ∧ s.inputs = .deliver (.receive [0x21, 0x01, 0x02]) :: [])
    ∧ (let s := { up with inputs := [.decodeStage], busChan := [⟨.receive [0x21, 0x01, 0x02], 0x21⟩] }
       s.inputs = .decodeStage :: [] ∧ s.busChan = ⟨.receive [0x21, 0x01, 0x02], 0x21⟩ :: []
        ∧ step s = .refused (.payloadTooLong 3)) := by
  refine ⟨by decide, ?_, ⟨rfl, rfl⟩, rfl, rfl, rfl⟩
  rintro p ⟨⟩
  decide
theorem witness_StepRunsDecodedInstruction :
    (let s := { listening cfg 0x03 with inputs := [.decodeStage], busChan := [⟨.request, 0x10⟩] }
     s.inputs = .decodeStage :: [] ∧ s.busChan = ⟨.request, 0x10⟩ :: []
       ∧ decode (contextOf { s with curAddr := 0x10 } (.bus .request)) (.bus .request) = .ok .rdSticky
       ∧ Instr.rdSticky.wf = true
       ∧ (seen (exec .rdSticky { s with inputs := [], busChan := [], curAddr := 0x10 }) (·.curAddr)) = some 0x10)
    ∧ (let s := { State.boot cfg 0x03 with inputs := [.decodeStage], busChan := [⟨.request, 0x10⟩] }
       stopped (exec .rdSticky { s with inputs := [], busChan := [], curAddr := 0x10 }) = some .bridgeDown)
    ∧ (let s := { up with inputs := [.internal (.sample 7 0x0064)] }
       s.inputs = .internal (.sample 7 0x0064) :: []
       ∧ decode (contextOf s (.internal (.sample 7 0x0064))) (.internal (.sample 7 0x0064))
          = .ok (.sampleRs 7 0x0064) ∧ (Instr.sampleRs 7 0x0064).wf = true) := by decide
theorem witness_DeliveredEventJoinsTheChannel :
    (let s := { up with inputs := [.deliver (.receive [0x21, 0x01])] }
     s.bridgeUp = true ∧ (BusEvent.receive [0x21, 0x01]).payloadLength ≤ 2
       ∧ s.inputs = .deliver (.receive [0x21, 0x01]) :: [] ∧ ∀ h ∈ s.busChan, h.event ≠ .request)
    ∧ (let s := { up with inputs := [.deliver (.receive [0x21, 0x01])], busChan := [⟨.request, 0x00⟩] }
       s.bridgeUp = true ∧ (BusEvent.receive [0x21, 0x01]).payloadLength ≤ 2
       ∧ s.inputs = .deliver (.receive [0x21, 0x01]) :: [] ∧ ⟨.request, 0x00⟩ ∈ s.busChan)
    ∧ (let s := { up with inputs := [.decodeStage] }
       s.inputs = .decodeStage :: [] ∧ s.busChan = [])
    ∧ up.inputs = [] := by decide
theorem witness_HandOverThenHandleIsOneStage :
    let s := { listening cfg 0x10 with inputs := [.deliver .request, .decodeStage] }
    s.bridgeUp = true ∧ s.busChan = [] ∧ s.inputs = .deliver .request :: .decodeStage :: []
      ∧ decode (contextOf s (.bus .request)) (.bus .request) = .ok .rdSticky := by decide

/-- A listening bridge: the hypothesis of EmptyReceiveAndFinishChangeNothing, AddressReceiveLatchesTheAddress,
RequestRepliesTheReadViewAtThePointer, of the first clauses of ConstantRegistersReplyTheirParameter and
StickyReadRepliesThenSettles, and of LocalWriteDrivesTheHonouredPins and TwoByteReceiveLatchesAndWritesOnlyActuators. -/
theorem witness_listening : up.bridgeUp = true := by decide
theorem witness_ConstantRegistersReplyTheirParameter :
    (∃ t, step { up with inputs := [.deliver .request] } = .next t) ∧ (0x00#8).toNat ≤ 0x04 ∧ (0x04#8).toNat ≤ 0x04 :=
  ⟨⟨_, rfl⟩, by decide, by decide⟩
/-- On a board of four channels, bits 4 and 7 are such bits. -/
theorem witness_StickyReadRepliesThenSettles :
    Inv (State.boot { cfg with nChannels := 4 } 0x10)
    ∧ ({ cfg with nChannels := 4 } : Config).nChannels.val ≤ (4 : Index).val
    ∧ ({ cfg with nChannels := 4 } : Config).nChannels.val ≤ (7 : Index).val := by
  refine ⟨⟨?_, ?_, ?_, ?_, ?_, ?_⟩, by decide, by decide⟩
  · simp [Config.wf, State.boot, cfg, Config.fifteenHalves, Config.oneHalf]; decide
  all_goals constructor <;> simp [State.boot, noBitBeyondChannels, bitAt, requestWaits]
theorem witness_BusEventsStopWhileTheBridgeIsDown :
    (State.boot cfg 0x00).bridgeUp = false ∧ isBus (.wrPwm7 0xFF) = true
    ∧ (let s := { State.boot cfg 0x00 with inputs := [.deliver .finish] }
       s.bridgeUp = false ∧ s.inputs = .deliver .finish :: []) := by decide
theorem witness_EveryBusEventRunsWhileTheBridgeIsUp :
    up.bridgeUp = true ∧ (BusEvent.receive [0xFF, 0xFF]).payloadLength ≤ 2 := by decide
theorem witness_UnknownAddressReadsTheSentinel :
    up.bridgeUp = true
    ∧ ∀ a ∈ [0x05#8, 0x0F, 0x11, 0xFF], (0x05 ≤ a.toNat ∧ a.toNat ≤ 0x0F) ∨ 0x11 ≤ a.toNat := by decide
theorem witness_ReadViewIsOneByteOrTheSentinel :
    (∀ a ∈ [0x00#8, 0x04, 0x10], a.toNat ≤ 0x04 ∨ a.toNat = 0x10)
    ∧ ∀ a ∈ [0x05#8, 0x0F, 0x11, 0xFF], ¬(a.toNat ≤ 0x04 ∨ a.toNat = 0x10) := by decide
theorem witness_SecondStickyReadRepliesTheLiveStatus :
    ∃ t u, exec .rdSticky { up with sticky := 0x03, lastRaw := 0x02 } = .next t
      ∧ runInstrs [.setAddr 0x10, .rdSticky, .cycle] t = .next u
      ∧ (∀ b, Instr.status b ∉ ([.setAddr 0x10, .rdSticky, .cycle] : List Instr)) ∧ u.bridgeUp = true :=
  ⟨_, _, rfl, rfl, by simp, rfl⟩
theorem witness_ClockedBytesAreTheReplysOwn :
    (let s := { up with replies := [[0x08], [0xFF, 0xFF]] }
     s.replies[1]? = some [0xFF, 0xFF] ∧ [0xFF#8, 0xFF][1]? = some 0xFF ∧ [0xFF#8, 0xFF].length ≤ 2
       ∧ s.replies[0]? = some [0x08] ∧ [0x08#8].length ≤ 1) := by decide
theorem witness_ExpanderWriteEnqueuesWhenThereIsRoom :
    let s := { up with outQueue := fullQueue.outQueue.tail }
    s.bridgeUp = true ∧ s.outQueue.length < s.cfg.queueCap := by decide
/-- The choice is a free value: whichever it is for this draw, one of the two clauses applies. -/
theorem witness_FullQueueSendWaitsOrDrops :
    fullQueue.bridgeUp = true ∧ fullQueue.outQueue = ⟨0, 1⟩ :: fullQueue.outQueue.tail
    ∧ fullQueue.cfg.queueCap ≤ fullQueue.outQueue.length
    ∧ (Config.freeSendWaits fullQueue.draws = true ∨ Config.freeSendWaits fullQueue.draws = false) := by
  refine ⟨rfl, rfl, by decide, ?_⟩
  cases Config.freeSendWaits fullQueue.draws <;> simp
theorem witness_PwmWriteSetsModeAndDuty :
    (up.bridgeUp = true ∧ up.cfg.pwmCapable.getLsbD 7 = true ∧ ¬((7 : Index) = 0 ∧ up.cfg.altAddress = true))
    ∧ (up.cfg.pwmCapable.getLsbD 0 = true ∧ ¬((0 : Index) = 0 ∧ up.cfg.altAddress = true))
    ∧ (let s := listening cfgAlt 0x00
       s.bridgeUp = true ∧ s.cfg.pwmCapable.getLsbD 0 = true ∧ ((0 : Index) = 0 ∧ s.cfg.altAddress = true)) := by
  decide
theorem witness_UnknownWriteOnlyLatchesTheAddress :
    (up.bridgeUp = true
      ∧ ∀ a ∈ [0x00#8, 0x1F, 0x29, 0x2F, 0x38, 0xFF],
          a.toNat ≤ 0x1F ∨ (0x29 ≤ a.toNat ∧ a.toNat ≤ 0x2F) ∨ 0x38 ≤ a.toNat)
    ∧ (let s := listening { cfg with pwmCapable := 0x02 } 0x00
       s.bridgeUp = true ∧ s.cfg.pwmCapable.getLsbD 0 = false ∧ s.cfg.pwmCapable.getLsbD 7 = false) := by decide
theorem witness_NoWriteChangesTheReadView :
    (∃ t, exec (decodeWrite 0x37 0xFF) up = .next t) ∧ ∃ t, exec (decodeWrite 0x10 0x00) up = .next t :=
  ⟨⟨_, rfl⟩, _, rfl⟩
theorem witness_SecondEqualActuatorWriteChangesNothing :
    (∃ t, exec (.wrLocal 0xA5) up = .next t) ∧ ∃ t, exec (wrPwm 7 0xFF) up = .next t := ⟨⟨_, rfl⟩, _, rfl⟩
theorem witness_PwmTargetIsTheFlooredFraction :
    0 < ({ cfg with periodTop := 1 } : Config).periodTop ∧ (0xFE#8).toNat ≤ (0xFF#8).toNat := by decide
theorem witness_PinOutputIsPwmOrLevel :
    (let s := { up with pwmMode := bankSet up.pwmMode 7 true }
     bankGet s.pwmMode 7 = true ∧ bankGet s.pwmMode 0 = false) := by decide
theorem witness_PwmModeIsSetOnlyByItsOwnRegister : ∃ t, exec (wrPwm 0 0x00) up = .next t := ⟨_, rfl⟩
theorem witness_NoStepLeavesPwmMode :
    let s := { up with pwmMode := bankSet up.pwmMode 1 true, inputs := [.internal .busErr] }
    (∃ t, step s = .next t) ∧ bankGet s.pwmMode 1 = true := ⟨⟨_, rfl⟩, rfl⟩
theorem witness_NoStepMovesAnUnhonouredPin :
    (let s := { up with
        pwmMode := bankSet up.pwmMode 1 true, inputs := [.decodeStage], busChan := [⟨.receive [0x20, 0xFF], 0x20⟩] }
     (∃ t, step s = .next t) ∧ bankGet s.pwmMode 1 = true)
    ∧ (let s := { listening cfgAlt 0x00 with inputs := [.decodeStage], busChan := [⟨.receive [0x20, 0xFF], 0x20⟩] }
       (∃ t, step s = .next t) ∧ ((0 : Index) = 0 ∧ s.cfg.altAddress = true)) :=
  ⟨⟨⟨_, rfl⟩, rfl⟩, ⟨_, rfl⟩, rfl, rfl⟩
theorem witness_WindowKeepsTheNewestEntries :
    (List.replicate 9 (0x0064 : Raw)).length ≤ 9 ∧ ([] : List Rat).length ≤ 0
    ∧ 9 < (List.replicate 9 (0x0064 : Raw)).length + 1 ∧ (List.replicate 8 (0x0064 : Raw)).length + 1 ≤ 9 := by
  decide
theorem witness_RankSpreadSampleSetsTheFlag :
    up.cfg.strategy = .rankSpread ∧ 1 ≤ up.cfg.wRs ∧ (7 : Index).val < up.cfg.nChannels.val
      ∧ up.statusPending = none := by decide
theorem witness_RankSpreadNeedsEnoughSamples :
    ∃ t, 1 ≤ up.cfg.wRs ∧ exec (.sampleRs 0 70) (withWindow cfg (List.replicate 6 100)) = .next t
      ∧ (bankGet t.win 0).length + up.cfg.delta < up.cfg.wRs + 2 := ⟨_, by decide, rfl, by decide⟩
theorem witness_StepDownIsActiveForTwoSamples :
    let s := withWindow cfg (List.replicate 9 100)
    s.cfg.strategy = .rankSpread ∧ s.cfg.wRs = 9 ∧ s.cfg.delta = 3 ∧ s.cfg.spreadThreshold = 25
      ∧ (0 : Index).val < s.cfg.nChannels.val ∧ s.statusPending = none
      ∧ bankGet s.win 0 = List.replicate 9 100
      ∧ 25 < val16 s.cfg.sampleSigned 100 - val16 s.cfg.sampleSigned 74 := by decide
theorem witness_PrimingSampleIsInactive :
    let s := withZWindow (pairs.take 19)
    s.cfg.strategy = .zscore ∧ (bankGet s.fwin 0).length < s.cfg.wZ ∧ (0 : Index).val < s.cfg.nChannels.val
      ∧ s.statusPending = none := by decide
theorem witness_ScoredSampleTestsThenBlends :
    let s := withZWindow pairs
    ∃ (w : List Rat) (newest mean var y : Rat), s.cfg.strategy = .zscore ∧ w = bankGet s.fwin 0 ∧ s.cfg.wZ ≤ w.length
      ∧ w.getLast? = some newest ∧ (0 : Index).val < s.cfg.nChannels.val ∧ s.statusPending = none
      ∧ y = (val16 s.cfg.sampleSigned 118 : Rat) ∧ mean = w.sum / w.length
      ∧ var = (w.map fun v => (v - mean) ^ 2).sum / w.length :=
  ⟨pairs, 104, _, _, _, rfl, rfl, by decide, by decide, by decide, rfl, rfl, rfl, rfl⟩
/-- The hypotheses of SampleEventWritesItsChannelOnly and MissingSampleChangesNothing, and of
CycleOffersTheFlagsAsOneByte, at the last channel. -/
theorem witness_classifier_free : (7 : Index).val < up.cfg.nChannels.val ∧ up.statusPending = none := by decide
theorem witness_ConstantStreamIsNeverActive :
    (up.cfg.wf = true ∧ (7 : Index).val < up.cfg.nChannels.val ∧ up.statusPending = none
      ∧ bankGet up.win 7 = [] ∧ bankGet up.fwin 7 = [])
    ∧ (let s := listening cfgZ 0x00
       s.cfg.wf = true ∧ (0 : Index).val < s.cfg.nChannels.val ∧ s.statusPending = none
        ∧ bankGet s.win 0 = [] ∧ bankGet s.fwin 0 = []) := by decide +kernel
theorem witness_ChannelsDoNotInterfere :
    (∃ t, up.cfg = fullQueue.cfg ∧ up.statusPending = fullQueue.statusPending
      ∧ bankGet up.win 3 = bankGet fullQueue.win 3 ∧ bankGet up.fwin 3 = bankGet fullQueue.fwin 3
      ∧ runEvent (.internal (.sample 3 70)) up = .next t)
    ∧ ∃ t, up.cfg = fullQueue.cfg ∧ up.statusPending = fullQueue.statusPending ∧ up.active = fullQueue.active
      ∧ exec .cycle up = .next t := ⟨⟨_, rfl, rfl, rfl, rfl, rfl⟩, _, rfl, rfl, rfl, rfl⟩
theorem witness_ClassifierIsHeldUntilTheByteIsAccepted :
    let s := { up with statusPending := some 0x08 }
    s.statusPending = some 0x08 ∧ (7 : Index).val < s.cfg.nChannels.val ∧ isClassifier .cycle = true := by decide
theorem witness_StatusAccumulatesIntoSticky :
    ({ up with statusPending := some 0x02 } : State).statusPending = some 0x02 ∧ up.statusPending ≠ some 0x02 := by
  decide
theorem witness_StickyIsTheOrSinceTheLastRead :
    (∃ t u, exec .rdSticky { up with active := bankSet up.active 3 true } = .next t
      ∧ runInstrs [.cycle, .status 0x08, .setAddr 0x10] t = .next u
      ∧ Instr.rdSticky ∉ ([.cycle, .status 0x08, .setAddr 0x10] : List Instr))
    ∧ ∃ u, runInstrs [.restart, .cycle, .status 0x00] (State.boot cfg 0x00) = .next u
      ∧ Instr.rdSticky ∉ ([.restart, .cycle, .status 0x00] : List Instr) :=
  ⟨⟨_, _, rfl, rfl, by decide⟩, _, rfl, by decide⟩
theorem witness_PopDeliversTheHeadOfTheQueue :
    fullQueue.outQueue = ⟨0, 1⟩ :: fullQueue.outQueue.tail ∧ up.outQueue = [] := by decide
theorem witness_PopsDeliverInOrder : 8 ≤ fullQueue.outQueue.length ∧ 0 ≤ up.outQueue.length := by decide
/-- Both clauses of BusErrorTakesTheBridgeDown and of RestartListensWithAFreePointer. -/
theorem witness_bridge_up_and_down : up.bridgeUp = true ∧ (State.boot cfg 0x00).bridgeUp = false := by decide
theorem witness_BootMeetsTheBlocksInvariant : cfg.wf = true ∧ cfgAlt.wf = true ∧ cfgZ.wf = true := by
  decide +kernel
/-- With two events handed over, a Request last. -/
theorem witness_EveryStepKeepsTheBlocksInvariant :
    let s := { listening cfg 0x20 with
      inputs := [.decodeStage], busChan := [⟨.receive [0x20, 0xA5], 0x20⟩, ⟨.request, 0x20⟩] }
    ∃ t, Inv s ∧ step s = .next t := by
  refine ⟨_, ⟨test_config_wf, ?_, ?_, ?_, ?_, ?_⟩, rfl⟩ <;> constructor <;>
    simp [listening, State.boot, noBitBeyondChannels, requestWaits, BusEvent.payloadLength, pointerAfter]
theorem witness_NoStepWritesAParameter : ∃ t, step { up with inputs := [.internal .busErr] } = .next t := ⟨_, rfl⟩
theorem witness_PointerMovesOnlyByAnAddressOrARestart :
    (∃ t, exec (.setAddr 0xFF) up = .next t) ∧ (∃ t, exec (wrExp 7 0xFF) up = .next t)
    ∧ (∃ t, exec .restart (State.boot cfg 0x00) = .next t)
    ∧ ∃ t, step { up with inputs := [.deliver (.receive [0xFF])] } = .next t :=
  ⟨⟨_, rfl⟩, ⟨_, rfl⟩, ⟨_, rfl⟩, _, rfl⟩
theorem witness_EachAgentWritesOnlyItsOwnState :
    (isBus .rdSticky = true ∧ ∃ t, exec .rdSticky up = .next t)
    ∧ (isClassifier .cycle = true ∧ ∃ t, exec .cycle up = .next t)
    ∧ (∃ t, exec (.status 0x02) { up with statusPending := some 0x02 } = .next t)
    ∧ (∃ t, exec .pop fullQueue = .next t) ∧ (∃ t, exec .busErr up = .next t)
    ∧ (∃ t, exec .restart (State.boot cfg 0x00) = .next t)
    ∧ (∃ t, exec (wrExp 7 0x01) up = .next t) ∧ ¬(up.cfg.queueCap ≤ up.outQueue.length) :=
  ⟨⟨rfl, _, rfl⟩, ⟨rfl, _, rfl⟩, ⟨_, rfl⟩, ⟨_, rfl⟩, ⟨_, rfl⟩, ⟨_, rfl⟩, ⟨_, rfl⟩, by decide⟩
theorem witness_BusEventsAndSamplesCommute :
    ∃ t u, isBus (.wrLocal 0xA5) = true ∧ exec (.wrLocal 0xA5) up = .next t
      ∧ runEvent (.internal (.sample 7 70)) up = .next u := ⟨_, _, rfl, rfl, rfl⟩
/-- Each clause: a channel just beyond the board's, and each row where its condition does not hold. -/
theorem witness_SampleStopsOffTheBoardAndOffItsRow :
    ({ cfg with nChannels := 4 } : Config).nChannels.val ≤ (4 : Index).val
    ∧ cfgZ.strategy ≠ .rankSpread
    ∧ ¬(cfgZ.strategy = .zscore ∧ (bankGet (withZWindow pairs).fwin 0).length < cfgZ.wZ)
    ∧ ¬(cfgZ.strategy = .zscore ∧ cfgZ.wZ ≤ (bankGet (withZWindow (pairs.take 19)).fwin 0).length) := by
  decide
/-- The pointer has become 0x03 since; the attached address is 0x10, and in the second state one with no R row. -/
theorem witness_RequestIsAnsweredAtTheAttachedAddress :
    (let s := { listening cfg 0x03 with inputs := [.decodeStage], busChan := [⟨.request, 0x10⟩] }
     s.bridgeUp = true ∧ s.inputs = .decodeStage :: [] ∧ s.busChan = ⟨.request, 0x10⟩ :: [])
    ∧ (let s := { listening cfg 0x03 with inputs := [.decodeStage], busChan := [⟨.request, 0xFF⟩] }
       s.bridgeUp = true ∧ s.inputs = .decodeStage :: [] ∧ s.busChan = ⟨.request, 0xFF⟩ :: []) := by decide

end Sys2Proof.Tests
end

/-! ## Facts for the family of the state: the decoder's converse, the frames, boot -/

namespace Sys2Proof.Machine

/-! ### Decoding and the indexed write registers -/

theorem encode_decodeWrite (a v : Byte) : encode (decodeWrite a v) = .bus (.receive [a, v]) := by
  unfold decodeWrite
  split <;> rfl

theorem encode_decodeRead (a : Byte) : encode (decodeRead a) = .bus .request := by
  unfold decodeRead
  split <;> rfl

/-- An instruction encodes to the event it was decoded from, whatever the context. -/
theorem encode_of_decode {x : Context} {e : Event} {i : Instr} (h : decode x e = .ok i) : encode i = e := by
  cases e with
  | internal e =>
    cases h
    cases e with
    | sample c x' => cases hr : x.sampleRow <;> rfl
    | _ => rfl
  | bus e =>
    cases e with
    | request => cases h; exact encode_decodeRead _
    | finish => cases h; rfl
    | receive payload =>
      match payload, h with
      | [], h => cases h; rfl
      | [a], h => cases h; rfl
      | [a, v], h => cases h; exact encode_decodeWrite a v

/-- The pin whose PWM register an instruction writes. -/
def pwmPin : Instr → Option Index
  | .wrPwm0 _ => some 0
  | .wrPwm1 _ => some 1
  | .wrPwm2 _ => some 2
  | .wrPwm3 _ => some 3
  | .wrPwm4 _ => some 4
  | .wrPwm5 _ => some 5
  | .wrPwm6 _ => some 6
  | .wrPwm7 _ => some 7
  | _ => none

@[simp] theorem pwmPin_wrPwm (n : Index) (v : Byte) : pwmPin (wrPwm n v) = some n := by
  fin_cases n <;> rfl

theorem wrPwm_of_pwmPin {i : Instr} {n : Index} (h : pwmPin i = some n) : ∃ v, i = wrPwm n v := by
  cases i with
  | wrPwm0 v | wrPwm1 v | wrPwm2 v | wrPwm3 v | wrPwm4 v | wrPwm5 v | wrPwm6 v | wrPwm7 v =>
    cases h; exact ⟨v, rfl⟩
  | _ => cases h

theorem effect_wrPwm (n : Index) (v : Byte) (s : State) :
    effect (wrPwm n v) s = (s.latch (pwmAddress n)).writePwm n v := by
  fin_cases n <;> rfl

/-! ### The parts of the state that the invariant's clauses read -/

/-- What the detectors' part of the invariant reads. -/
def detectorView (s : State) : Config × Bank (List Raw) × Bank (List Rat) × Bank Bool :=
  (s.cfg, s.win, s.fwin, s.active)

/-- What the status bytes' part of the invariant reads. -/
def statusView (s : State) : Config × Byte × Byte × Option Byte :=
  (s.cfg, s.sticky, s.lastRaw, s.statusPending)

/-- What the pins' part of the invariant reads. -/
def pinView (s : State) : Config × Bank Bool × Bank Byte × Byte :=
  (s.cfg, s.pwmMode, s.pwmDuty, s.pinLevel)

/-- What the queues' part of the invariant reads. -/
def queueView (s : State) : Config × List OutputRequest × Bank Byte :=
  (s.cfg, s.outQueue, s.expOut)

/-- The instruction is one of the three SAMPLE rows. -/
def isSample : Instr → Bool
  | .sampleRs _ _ => true
  | .sampleZPrime _ _ => true
  | .sampleZ _ _ => true
  | _ => false

/-- Only a SAMPLE row writes the detectors. -/
theorem effect_detectorView {i : Instr} (s : State) (h : isSample i = false) :
    detectorView (effect i s) = detectorView s := by
  cases i with
  | sampleRs c x | sampleZPrime c x | sampleZ c x => cases h
  | _ => simp [effect, detectorView]

/-- Only a read of 0x10, CYCLE and STATUS write the status bytes. -/
theorem effect_statusView {i : Instr} (s : State) (hr : i ≠ .rdSticky) (hc : i ≠ .cycle)
    (hs : ∀ b, i ≠ .status b) : statusView (effect i s) = statusView s := by
  cases i with
  | rdSticky => exact absurd rfl hr
  | cycle => exact absurd rfl hc
  | status b => exact absurd rfl (hs b)
  | sampleRs c x | sampleZPrime c x | sampleZ c x => rfl
  | _ => simp [effect, statusView]

/-- Only a write to 0x20 or to a PWM register writes the pins. -/
theorem effect_pinView {i : Instr} (s : State) (hl : ∀ v, i ≠ .wrLocal v) (hp : pwmPin i = none) :
    pinView (effect i s) = pinView s := by
  cases i with
  | wrLocal v => exact absurd rfl (hl v)
  | wrPwm0 v | wrPwm1 v | wrPwm2 v | wrPwm3 v | wrPwm4 v | wrPwm5 v | wrPwm6 v | wrPwm7 v => cases hp
  | sampleRs c x | sampleZPrime c x | sampleZ c x => rfl
  | _ => simp [effect, pinView]

/-! ### What each agent's instructions change -/

/-- A bus event changes at most the pointer, sticky, the pins, the queue (and, through a waiting send, the
expanders), and the model's replies and draws. -/
theorem effect_of_bus {i : Instr} (s : State) (h : isBus i = true) :
    effect i s
      = { s with
          curAddr := (effect i s).curAddr
          sticky := (effect i s).sticky
          pwmMode := (effect i s).pwmMode
          pwmDuty := (effect i s).pwmDuty
          pinLevel := (effect i s).pinLevel
          outQueue := (effect i s).outQueue
          expOut := (effect i s).expOut
          replies := (effect i s).replies
          draws := (effect i s).draws } := by
  cases i with
  | wrExp0 v | wrExp1 v | wrExp2 v | wrExp3 v | wrExp4 v | wrExp5 v | wrExp6 v | wrExp7 v =>
    simp only [effect]
    rw [emitOutput_spec]
    rfl
  | wrPwm0 v | wrPwm1 v | wrPwm2 v | wrPwm3 v | wrPwm4 v | wrPwm5 v | wrPwm6 v | wrPwm7 v =>
    simp only [effect]
    rw [writePwm_spec]
    rfl
  | sampleRs c x | sampleZPrime c x | sampleZ c x | noSample c | cycle | status b | pop | busErr | restart =>
    cases h
  | _ => rfl

/-- A step of the classifier side changes at most the detectors and the status handoff. -/
theorem effect_of_classifier {i : Instr} (s : State) (h : isClassifier i = true) :
    effect i s
      = { s with
          win := (effect i s).win
          fwin := (effect i s).fwin
          active := (effect i s).active
          statusPending := (effect i s).statusPending } := by
  cases i with
  | sampleRs c x | sampleZPrime c x | sampleZ c x | noSample c | cycle => rfl
  | _ => cases h

/-- A send writes no expander, unless the queue is full and the send waits for a POP. -/
theorem emitOutput_expOut {s : State} (r : OutputRequest)
    (h : ¬(s.cfg.queueCap ≤ s.outQueue.length ∧ Config.freeSendWaits s.draws = true)) :
    (s.emitOutput r).expOut = s.expOut := by
  by_cases hroom : s.outQueue.length < s.cfg.queueCap
  · simp [emitOutput_room hroom]
  · have hdrop : Config.freeSendWaits s.draws = false := by
      simpa using fun hw => h ⟨not_lt.mp hroom, hw⟩
    simp [emitOutput_full hroom, hdrop]

/-- A bus event writes an expander only as an expander write that waits at a full queue. -/
theorem effect_expOut_of_bus {i : Instr} {s : State} (hb : isBus i = true)
    (h : ¬((∃ n v, i = wrExp n v) ∧ s.cfg.queueCap ≤ s.outQueue.length
      ∧ Config.freeSendWaits s.draws = true)) :
    (effect i s).expOut = s.expOut := by
  have send (n : Index) (a v : Byte) (hi : i = wrExp n v) :
      ((s.latch a).emitOutput ⟨n, v⟩).expOut = s.expOut :=
    emitOutput_expOut _ fun hw => h ⟨⟨n, v, hi⟩, hw⟩
  cases i with
  | wrExp0 v | wrExp1 v | wrExp2 v | wrExp3 v | wrExp4 v | wrExp5 v | wrExp6 v | wrExp7 v =>
    exact send _ _ v rfl
  | sampleRs c x | sampleZPrime c x | sampleZ c x | noSample c | cycle | status b | pop | busErr | restart =>
    cases hb
  | _ => simp [effect]

/-! ### The parts of the invariant that the bus channel does not enter -/

theorem DetectorInv.congr {s t : State} (h : DetectorInv s) (hv : detectorView t = detectorView s) :
    DetectorInv t := by
  cases s; cases t; cases hv
  exact ⟨h.win_length, h.fwin_length, h.rank_only, h.zscore_only, h.absent_inactive⟩

theorem StatusInv.congr {s t : State} (h : StatusInv s) (hv : statusView t = statusView s) : StatusInv t := by
  cases s; cases t; cases hv
  exact ⟨h.sticky_covers, h.sticky_channels, h.raw_channels, h.pending_channels⟩

theorem PinInv.congr {s t : State} (h : PinInv s) (hv : pinView t = pinView s) : PinInv t := by
  cases s; cases t; cases hv
  exact ⟨h.mode_capable, h.strap_mode, h.strap_level, h.level_duty⟩

theorem QueueInv.congr {s t : State} (h : QueueInv s) (hv : queueView t = queueView s) : QueueInv t := by
  cases s; cases t; cases hv
  exact ⟨h.queue_length, h.absent_expanders⟩

/-- The flag of a channel of the board may take any value. -/
theorem absent_inactive_bankSet {cfg : Config} {active : Bank Bool} {c : Index} (flag : Bool)
    (hc : c.val < cfg.nChannels.val)
    (h : ∀ d : Index, cfg.nChannels.val ≤ d.val → bankGet active d = false) :
    ∀ d : Index, cfg.nChannels.val ≤ d.val → bankGet (bankSet active c flag) d = false := by
  intro d hd
  have hcd : c ≠ d := by rintro rfl; omega
  rw [bankGet_bankSet_other _ _ hcd]
  exact h d hd

/-- A window within the length bound keeps every window within it. -/
theorem length_bankSet_le {α : Type} {b : Bank (List α)} {c : Index} {w : List α} {size : Nat}
    (hw : w.length ≤ size) (h : ∀ d, (bankGet b d).length ≤ size) :
    ∀ d, (bankGet (bankSet b c w) d).length ≤ size := by
  intro d
  rw [bankGet_bankSet]
  split
  · exact hw
  · exact h d

/-- A sample of the rank/spread strategy on a channel of the board keeps the detectors' invariant. -/
theorem DetectorInv.updateRank {s : State} (h : DetectorInv s) {c : Index} {w : List Raw} (flag : Bool)
    (hs : s.cfg.strategy = .rankSpread) (hc : c.val < s.cfg.nChannels.val) (hw : w.length ≤ s.cfg.wRs) :
    DetectorInv (s.updateRank c w flag) where
  win_length := length_bankSet_le hw h.win_length
  fwin_length := h.fwin_length
  rank_only := h.rank_only
  zscore_only hz := absurd (hs.symm.trans hz) (by decide)
  absent_inactive := absent_inactive_bankSet flag hc h.absent_inactive

/-- A sample of the z-score strategy on a channel of the board keeps the detectors' invariant. -/
theorem DetectorInv.updateZ {s : State} (h : DetectorInv s) {c : Index} {w : List Rat} (flag : Bool)
    (hs : s.cfg.strategy = .zscore) (hc : c.val < s.cfg.nChannels.val) (hw : w.length ≤ s.cfg.wZ) :
    DetectorInv (s.updateZ c w flag) where
  win_length := h.win_length
  fwin_length := length_bankSet_le hw h.fwin_length
  rank_only hr := absurd (hs.symm.trans hr) (by decide)
  zscore_only := h.zscore_only
  absent_inactive := absent_inactive_bankSet flag hc h.absent_inactive

theorem rankRow_iff {s : State} : rankRow s = true ↔ s.cfg.strategy = .rankSpread := by simp [rankRow]

theorem primingRow_iff {c : Index} {s : State} :
    primingRow c s = true ↔ s.cfg.strategy = .zscore ∧ (bankGet s.fwin c).length < s.cfg.wZ := by
  simp [primingRow]

theorem scoredRow_iff {c : Index} {s : State} :
    scoredRow c s = true ↔ s.cfg.strategy = .zscore ∧ s.cfg.wZ ≤ (bankGet s.fwin c).length := by
  simp [scoredRow]

theorem DetectorInv.effect {i : Instr} {s : State} (h : DetectorInv s) (hi : enabled i s) :
    DetectorInv (effect i s) := by
  cases i with
  | sampleRs c x =>
    obtain ⟨hrow, hc, -⟩ := hi
    exact h.updateRank _ (rankRow_iff.mp hrow) hc (push_length_le _ _ (h.win_length c))
  | sampleZPrime c x =>
    obtain ⟨hrow, hc, -⟩ := hi
    obtain ⟨hz, hlen⟩ := primingRow_iff.mp hrow
    exact h.updateZ _ hz hc (by simpa using hlen)
  | sampleZ c x =>
    obtain ⟨hrow, hc, -⟩ := hi
    exact h.updateZ _ (scoredRow_iff.mp hrow).1 hc (push_length_le _ _ (h.fwin_length c))
  | _ => exact h.congr (effect_detectorView s rfl)

/-- Sticky covers the latest raw status (10_state.md R30). -/
def StickyCovers (s : State) : Prop := s.sticky &&& s.lastRaw = s.lastRaw

theorem StickyCovers.congr {s t : State} (h : StickyCovers s) (hv : statusView t = statusView s) :
    StickyCovers t := by
  cases s; cases t; cases hv
  exact h

theorem stickyCovers_acceptStatus (s : State) (b : Byte) : StickyCovers (s.acceptStatus b) := by
  apply byte_ext
  intro c
  cases hb : bitAt b c <;> simp [hb]

theorem stickyCovers_settleSticky (s : State) : StickyCovers s.settleSticky := BitVec.and_self

theorem StickyCovers.effect {s : State} (h : StickyCovers s) (i : Instr) : StickyCovers (effect i s) := by
  cases i with
  | rdSticky => exact stickyCovers_settleSticky _
  | status b => exact stickyCovers_acceptStatus s b
  | cycle => exact h
  | _ => exact h.congr (effect_statusView s (by simp) (by simp) (by simp))

theorem noBitBeyondChannels_or {cfg : Config} {a b : Byte} (ha : noBitBeyondChannels cfg a)
    (hb : noBitBeyondChannels cfg b) : noBitBeyondChannels cfg (a ||| b) := by
  intro c hc
  simp [ha c hc, hb c hc]

theorem noBitBeyondChannels_statusByte (cfg : Config) (active : Bank Bool) :
    noBitBeyondChannels cfg (statusByte cfg active) := by
  intro c hc
  simp [bitAt_statusByte, hc]

theorem StatusInv.effect {i : Instr} {s : State} (h : StatusInv s) (hi : enabled i s) :
    StatusInv (effect i s) := by
  have hcovers : StickyCovers (Machine.effect i s) := StickyCovers.effect h.sticky_covers i
  cases i with
  | rdSticky => exact ⟨hcovers, h.raw_channels, h.raw_channels, h.pending_channels⟩
  | cycle =>
    refine ⟨hcovers, h.sticky_channels, h.raw_channels, fun b hb => ?_⟩
    cases hb
    exact noBitBeyondChannels_statusByte s.cfg s.active
  | status b =>
    have hb : noBitBeyondChannels s.cfg b := h.pending_channels b hi
    exact ⟨hcovers, noBitBeyondChannels_or h.sticky_channels hb, hb, fun _ hn => nomatch hn⟩
  | _ => exact h.congr (effect_statusView s (by simp) (by simp) (by simp))

/-- A write to register 0x20 does not reach the strap pin. -/
theorem PinInv.driveLocal {s : State} (h : PinInv s) (v : Byte) : PinInv (s.driveLocal v) where
  mode_capable := h.mode_capable
  strap_mode := h.strap_mode
  strap_level ha := by
    have hstrap : honoured s.cfg s.pwmMode 0 = false := by
      simpa [honoured] using fun _ => ha
    simpa [bitAt_localLevels, hstrap] using h.strap_level ha
  level_duty := h.level_duty

/-- A honoured write to a PWM register names a pin with the row, and not the strap. -/
theorem PinInv.writePwm {s : State} (h : PinInv s) (n : Index) (v : Byte) : PinInv (s.writePwm n v) := by
  unfold State.writePwm
  split
  · next hon =>
    obtain ⟨hcap, hstrap⟩ := (pwmHonoured_iff s.cfg n).mp hon
    constructor
    · intro m hm
      by_cases hnm : n = m
      · exact hnm ▸ hcap
      · exact h.mode_capable m (by simpa [bankGet_bankSet, hnm] using hm)
    · intro ha
      have hn : n ≠ 0 := fun hn => hstrap ⟨hn, ha⟩
      simpa [bankGet_bankSet, hn] using h.strap_mode ha
    · exact h.strap_level
    · intro m hm
      by_cases hnm : n = m
      · simp [hnm] at hm
      · simpa [bankGet_bankSet, hnm] using h.level_duty m (by simpa [bankGet_bankSet, hnm] using hm)
  · exact h

theorem PinInv.effect {s : State} (h : PinInv s) (i : Instr) : PinInv (effect i s) := by
  have latched (a : Byte) : PinInv (s.latch a) := h.congr rfl
  cases i with
  | wrLocal v => exact (latched _).driveLocal v
  | wrPwm0 v | wrPwm1 v | wrPwm2 v | wrPwm3 v | wrPwm4 v | wrPwm5 v | wrPwm6 v | wrPwm7 v =>
    exact (latched _).writePwm _ v
  | _ => exact h.congr (effect_pinView s (by simp) rfl)

theorem QueueInv.popHead {s : State} (h : QueueInv s) : QueueInv s.popHead := by
  cases hq : s.outQueue with
  | nil => rw [popHead_nil hq]; exact h
  | cons r rest =>
    rw [popHead_cons hq]
    constructor
    · have hlen := h.queue_length
      rw [hq, List.length_cons] at hlen
      exact Nat.le_of_succ_le hlen
    · intro d hd
      have habsent : ¬(r.device = d ∧ d.val < s.cfg.nExpanders.val) := fun hw => not_lt.mpr hd hw.2
      exact (expanderWrite_get s.cfg s.expOut r d).trans ((if_neg habsent).trans (h.absent_expanders d hd))

theorem QueueInv.enqueue {s : State} (h : QueueInv s) (r : OutputRequest)
    (hroom : s.outQueue.length < s.cfg.queueCap) : QueueInv (s.enqueue r) where
  queue_length := by simpa using hroom
  absent_expanders := h.absent_expanders

/-- A POP makes room in a queue within its capacity. -/
theorem popHead_outQueue_length_lt {s : State} (h : QueueInv s) (hcap : 1 ≤ s.cfg.queueCap) :
    s.popHead.outQueue.length < s.popHead.cfg.queueCap := by
  have hlen := h.queue_length
  rw [popHead_spec s]
  simp only [List.length_tail]
  omega

theorem QueueInv.emitOutput {s : State} (h : QueueInv s) (hcap : 1 ≤ s.cfg.queueCap) (r : OutputRequest) :
    QueueInv (s.emitOutput r) := by
  by_cases hroom : s.outQueue.length < s.cfg.queueCap
  · rw [emitOutput_room hroom]
    exact h.enqueue r hroom
  · rw [emitOutput_full hroom]
    split
    · exact (h.popHead.enqueue r (popHead_outQueue_length_lt h hcap)).congr rfl
    · exact h.congr rfl

theorem QueueInv.effect {s : State} (h : QueueInv s) (hcap : 1 ≤ s.cfg.queueCap) (i : Instr) :
    QueueInv (effect i s) := by
  have send (a : Byte) (r : OutputRequest) : QueueInv ((s.latch a).emitOutput r) :=
    QueueInv.emitOutput (s := s.latch a) (h.congr rfl) hcap r
  cases i with
  | wrExp0 v | wrExp1 v | wrExp2 v | wrExp3 v | wrExp4 v | wrExp5 v | wrExp6 v | wrExp7 v => exact send _ _
  | pop => exact h.popHead
  | wrPwm0 v | wrPwm1 v | wrPwm2 v | wrPwm3 v | wrPwm4 v | wrPwm5 v | wrPwm6 v | wrPwm7 v =>
    exact h.congr (by simp [Machine.effect, queueView])
  | _ => exact h.congr rfl

theorem one_le_queueCap_of_wf {cfg : Config} (h : cfg.wf = true) : 1 ≤ cfg.queueCap := by
  simp only [Config.wf, Bool.and_eq_true, decide_eq_true_eq] at h
  exact h.2

/-- The invariant without its part of `bus_chan`: what the front end does not enter. -/
structure BodyInv (s : State) : Prop where
  board : s.cfg.wf = true
  detectors : DetectorInv s
  status : StatusInv s
  pins : PinInv s
  queues : QueueInv s

theorem inv_iff {s : State} : Inv s ↔ BodyInv s ∧ ChannelInv s :=
  ⟨fun h => ⟨⟨h.board, h.detectors, h.status, h.pins, h.queues⟩, h.channel⟩,
    fun ⟨h, hc⟩ => ⟨h.board, h.detectors, h.status, h.pins, h.queues, hc⟩⟩

/-- States that differ at most in the pointer, `bus_chan`, the bridge's state and the model's own fields meet
the body of the invariant alike. -/
theorem BodyInv.congr {s t : State} (h : BodyInv s) (hd : detectorView t = detectorView s)
    (hs : statusView t = statusView s) (hp : pinView t = pinView s) (hq : queueView t = queueView s) :
    BodyInv t :=
  ⟨(congrArg (fun v => v.1.wf) hd).trans h.board, h.detectors.congr hd, h.status.congr hs, h.pins.congr hp,
    h.queues.congr hq⟩

/-- Every instruction that runs keeps the body of the invariant. -/
theorem bodyInv_of_exec {i : Instr} {s t : State} (hx : exec i s = .next t) (h : BodyInv s) : BodyInv t := by
  obtain ⟨hi, rfl⟩ := exec_next hx
  exact ⟨(congrArg Config.wf (effect_cfg i s)).trans h.board, h.detectors.effect hi, h.status.effect hi,
    h.pins.effect i, h.queues.effect (one_le_queueCap_of_wf h.board) i⟩

/-! ### The part of `bus_chan` -/

/-- The channel's part reads the pointer, `bus_chan` and the bridge's state. -/
theorem ChannelInv.congr {s t : State} (h : ChannelInv s) (ha : t.curAddr = s.curAddr)
    (hc : t.busChan = s.busChan) (hb : t.bridgeUp = s.bridgeUp) : ChannelInv t := by
  cases s; cases t; cases ha; cases hc; cases hb
  exact ⟨h.payloads, h.address, h.pointer, h.request_last, h.down_empty⟩

/-- An empty `bus_chan` meets its part of the invariant. -/
theorem channelInv_of_empty {s : State} (h : s.busChan = []) : ChannelInv s := by
  constructor <;> simp [h, requestWaits]

/-- A turn of the decode stage takes the head of `bus_chan` and leaves the front end's pointer. -/
theorem ChannelInv.tail {s t : State} {e : Handed} {chan : List Handed} (h : ChannelInv s)
    (hs : s.busChan = e :: chan) (ha : t.curAddr = s.curAddr) (hc : t.busChan = chan)
    (hb : t.bridgeUp = s.bridgeUp) : ChannelInv t := by
  cases chan with
  | nil => exact channelInv_of_empty hc
  | cons e' chan =>
    have hmem : ∀ k ∈ t.busChan, k ∈ s.busChan := fun k hk => by
      rw [hs, ← hc]; exact List.mem_cons_of_mem e hk
    constructor
    · exact fun k hk => h.payloads k (hmem k hk)
    · exact fun k hk => h.address k (hmem k hk)
    · intro k hk
      rw [ha]
      exact h.pointer k (by rw [hs, List.getLast?_cons_cons, ← hc]; exact hk)
    · have hlast := h.request_last
      rw [hs, List.dropLast_cons_cons] at hlast
      rw [hc]
      exact (Bool.or_eq_false_iff.mp hlast).2
    · intro hd
      have hempty := h.down_empty (hb ▸ hd)
      rw [hs] at hempty
      cases hempty

theorem pointerAfter_idem (e : BusEvent) (pointer : Byte) :
    pointerAfter e (pointerAfter e pointer) = pointerAfter e pointer := by
  cases e with
  | receive payload => cases payload <;> rfl
  | request => rfl
  | finish => rfl

/-- A hand-over of an event of the alphabet, the bridge up and no Request waiting. -/
theorem ChannelInv.handEvent {s : State} {e : BusEvent} (h : ChannelInv s) (hb : s.bridgeUp = true)
    (hl : e.payloadLength ≤ 2) (hw : requestWaits s.busChan = false) : ChannelInv (s.handEvent e) := by
  constructor
  · intro k hk
    rcases List.mem_append.mp hk with hk | hk
    · exact h.payloads k hk
    · cases List.mem_singleton.mp hk
      exact hl
  · intro k hk
    rcases List.mem_append.mp hk with hk | hk
    · exact h.address k hk
    · cases List.mem_singleton.mp hk
      exact pointerAfter_idem e s.curAddr
  · intro k hk
    simp only [State.handEvent_busChan, List.getLast?_concat, Option.some.injEq] at hk
    subst hk
    rfl
  · simpa using hw
  · intro hd
    exact absurd (hb.symm.trans hd) (by decide)

theorem eq_restart_of_encode {i : Instr} (h : encode i = .internal .restart) : i = .restart := by
  cases i with
  | restart => rfl
  | _ => cases h

/-- An instruction of an event that does not come from the bus leaves the pointer and `bus_chan`, or empties
`bus_chan`. -/
theorem ChannelInv.effect_internal {i : Instr} {e : InternalEvent} {s : State} (h : ChannelInv s)
    (he : encode i = .internal e) : ChannelInv (effect i s) := by
  by_cases hb : i = .busErr
  · subst hb
    exact channelInv_of_empty rfl
  by_cases hr : i = .restart
  · subst hr
    exact channelInv_of_empty rfl
  obtain ⟨hchan, hup⟩ := effect_channel s hb hr
  have hptr : (effect i s).curAddr = s.curAddr := by
    rw [effect_curAddr, he]
    cases e with
    | restart => exact absurd (eq_restart_of_encode he) hr
    | _ => rfl
  exact h.congr hptr hchan hup

/-- A bus event's instruction is neither BUSERR nor RESTART, so it leaves `bus_chan` and the bridge's state. -/
theorem effect_channel_of_bus {i : Instr} {e : BusEvent} (s : State) (h : encode i = .bus e) :
    (effect i s).busChan = s.busChan ∧ (effect i s).bridgeUp = s.bridgeUp := by
  refine effect_channel s ?_ ?_ <;> rintro rfl <;> cases h

/-- Settles O54: each kind of step, from `step_cases`, keeps the body of the invariant (`bodyInv_of_exec`) and the
part of `bus_chan`. -/
theorem everyStepKeepsTheBlocksInvariant : Obligations.EveryStepKeepsTheBlocksInvariant := by
  intro s t hinv hstep
  obtain ⟨hbody, hchannel⟩ := inv_iff.mp hinv
  rw [inv_iff]
  rcases step_cases hstep with ⟨-, rfl⟩ | ⟨e, rest, -, hup, hlen, hwait, rfl⟩ | ⟨rest, -, -, rfl⟩
    | ⟨e, chan, left, i, u, -, hchan, hdec, hx, rfl⟩ | ⟨e, rest, i, -, hdec, hx⟩
  · exact ⟨hbody, hchannel⟩
  · exact ⟨hbody.congr rfl rfl rfl rfl,
      ChannelInv.handEvent (s := { s with inputs := rest }) (hchannel.congr rfl rfl rfl) hup hlen hwait⟩
  · exact ⟨hbody.congr rfl rfl rfl rfl, hchannel.congr rfl rfl rfl⟩
  · refine ⟨(bodyInv_of_exec hx (hbody.congr rfl rfl rfl rfl)).congr rfl rfl rfl rfl, ?_⟩
    obtain ⟨-, rfl⟩ := exec_next hx
    obtain ⟨hc, hb⟩ := effect_channel_of_bus _ (encode_of_decode hdec)
    exact hchannel.tail hchan rfl hc hb
  · refine ⟨bodyInv_of_exec hx (hbody.congr rfl rfl rfl rfl), ?_⟩
    obtain ⟨-, rfl⟩ := exec_next hx
    exact ChannelInv.effect_internal (hchannel.congr rfl rfl rfl) (encode_of_decode hdec)

/-! ### PWM modes -/

theorem wrPwm_pin_inj {m n : Index} {v w : Byte} (h : wrPwm m v = wrPwm n w) : m = n := by
  simpa using congrArg pwmPin h

/-- Only a write to a PWM register writes the modes. -/
theorem effect_pwmMode {i : Instr} (s : State) (h : pwmPin i = none) : (effect i s).pwmMode = s.pwmMode := by
  cases i with
  | wrPwm0 v | wrPwm1 v | wrPwm2 v | wrPwm3 v | wrPwm4 v | wrPwm5 v | wrPwm6 v | wrPwm7 v => cases h
  | sampleRs c x | sampleZPrime c x | sampleZ c x => rfl
  | _ => simp [effect]

theorem writePwm_pwmMode_iff (s : State) (m n : Index) (v : Byte) :
    bankGet (s.writePwm m v).pwmMode n = true
      ↔ bankGet s.pwmMode n = true ∨ m = n ∧ pwmHonoured s.cfg m = true := by
  rw [writePwm_spec]
  by_cases hmn : m = n <;> cases hon : pwmHonoured s.cfg m <;> simp [bankGet_bankSet, hmn]

/-- Settles O30: an instruction that writes no PWM register leaves the modes, and a write to the register of a pin
sets that pin's mode if it is honoured. -/
theorem pwmModeIsSetOnlyByItsOwnRegister : Obligations.PwmModeIsSetOnlyByItsOwnRegister := by
  intro s t i n hx
  obtain ⟨-, rfl⟩ := exec_next hx
  cases hp : pwmPin i with
  | none =>
    have hne : ∀ v, i ≠ wrPwm n v := by
      rintro v rfl
      simp at hp
    simp [effect_pwmMode s hp, hne]
  | some m =>
    obtain ⟨v, rfl⟩ := wrPwm_of_pwmPin hp
    rw [effect_wrPwm, writePwm_pwmMode_iff]
    refine or_congr Iff.rfl ⟨?_, ?_⟩
    · rintro ⟨rfl, hon⟩
      exact ⟨v, rfl, (pwmHonoured_iff s.cfg m).mp hon⟩
    · rintro ⟨w, hw, hon⟩
      obtain rfl := wrPwm_pin_inj hw
      exact ⟨rfl, (pwmHonoured_iff s.cfg m).mpr hon⟩

/-! ### Sticky over a run -/

theorem orAll_append (xs ys : List Byte) : orAll (xs ++ ys) = orAll xs ||| orAll ys := by
  induction xs with
  | nil => simp [orAll]
  | cons x xs ih =>
    simp only [orAll, List.cons_append, List.foldr_cons] at ih ⊢
    rw [ih, BitVec.or_assoc]

theorem acceptedBytes_cons (i : Instr) (rest : List Instr) :
    acceptedBytes (i :: rest) = acceptedBytes [i] ++ acceptedBytes rest := by
  cases i <;> rfl

/-- An instruction other than a read of 0x10 ORs into sticky the status byte it accepts, if it accepts one. -/
theorem effect_sticky {i : Instr} (s : State) (h : i ≠ .rdSticky) :
    (effect i s).sticky = s.sticky ||| orAll (acceptedBytes [i]) := by
  cases i with
  | rdSticky => exact absurd rfl h
  | status b => simp [effect, acceptedBytes, orAll]
  | sampleRs c x | sampleZPrime c x | sampleZ c x => exact BitVec.or_zero.symm
  | _ => simp [effect, acceptedBytes, orAll]

/-- A run without a read of 0x10 ORs into sticky the status bytes it accepts. -/
theorem runInstrs_sticky {is : List Instr} {s t : State} (hrun : runInstrs is s = .next t)
    (hno : .rdSticky ∉ is) : t.sticky = s.sticky ||| orAll (acceptedBytes is) := by
  induction is generalizing s with
  | nil =>
    cases hrun
    simp [acceptedBytes, orAll]
  | cons i rest ih =>
    obtain ⟨hi, hrest⟩ := not_or.mp (mt List.mem_cons.mpr hno)
    obtain ⟨u, hx, hrun⟩ := andThen_next hrun
    obtain ⟨-, rfl⟩ := exec_next hx
    rw [ih hrun hrest, effect_sticky s (Ne.symm hi), acceptedBytes_cons i rest, orAll_append, BitVec.or_assoc]

theorem runInstrs_stickyCovers {is : List Instr} {s t : State} (hrun : runInstrs is s = .next t)
    (h : StickyCovers s) : StickyCovers t := by
  refine runInstrs_keeps (fun i s t hx hs => ?_) hrun h
  obtain ⟨-, rfl⟩ := exec_next hx
  exact hs.effect i

/-- Settles O47, by induction on the run (`runInstrs_sticky`) from the state after the read, and from boot. -/
theorem stickyIsTheOrSinceTheLastRead : Obligations.StickyIsTheOrSinceTheLastRead := by
  refine ⟨fun s t u since hread hrun hno => ?_, fun cfg pointer u since hrun hno => ?_⟩
  · obtain ⟨-, rfl⟩ := exec_next hread
    exact ⟨runInstrs_sticky hrun hno, runInstrs_stickyCovers hrun (stickyCovers_settleSticky _)⟩
  · refine ⟨?_, runInstrs_stickyCovers hrun BitVec.and_self⟩
    rw [runInstrs_sticky hrun hno]
    exact BitVec.zero_or

/-! ### Parameters and the pointer -/

/-- Settles O55: a hand-over and an instruction's effect leave the parameters, whichever kind of step it is. -/
theorem noStepWritesAParameter : Obligations.NoStepWritesAParameter := by
  intro s t hstep
  rcases step_cases hstep with ⟨-, rfl⟩ | ⟨e, rest, -, -, -, -, rfl⟩ | ⟨rest, -, -, rfl⟩
    | ⟨e, chan, left, i, u, -, -, -, hx, rfl⟩ | ⟨e, rest, i, -, -, hx⟩
  · rfl
  · rfl
  · rfl
  · obtain ⟨-, rfl⟩ := exec_next hx
    exact effect_cfg i _
  · obtain ⟨-, rfl⟩ := exec_next hx
    exact effect_cfg i _

/-- Settles O56: `effect_curAddr` for an instruction; in a step the hand-over latches, the decode stage gives the
front end its pointer back, and an internal event's instruction encodes to it. -/
theorem pointerMovesOnlyByAnAddressOrARestart : Obligations.PointerMovesOnlyByAnAddressOrARestart := by
  refine ⟨fun s t i hx => ?_, fun s t hstep => ?_⟩
  · obtain ⟨-, rfl⟩ := exec_next hx
    exact effect_curAddr i s
  · rcases step_cases hstep with ⟨hin, rfl⟩ | ⟨e, rest, hin, -, -, hwait, rfl⟩ | ⟨rest, hin, -, rfl⟩
      | ⟨e, chan, left, i, u, hturn, -, -, -, rfl⟩ | ⟨e, rest, i, hin, hdec, hx⟩
    · rw [hin]
    · rw [hin]
      match e with
      | .receive (a :: l) => exact (if_neg (ne_true_of_eq_false hwait)).symm
      | .receive [] => rfl
      | .request => rfl
      | .finish => rfl
    · rw [hin]
    · rcases hturn with hin | ⟨⟨e', rest, hin⟩, -, hwait⟩
      · rw [hin]
        rfl
      · rw [hin]
        match e' with
        | .receive (a :: l) => exact (if_pos hwait).symm
        | .receive [] => rfl
        | .request => rfl
        | .finish => rfl
    · obtain ⟨-, rfl⟩ := exec_next hx
      rw [hin, effect_curAddr, encode_of_decode hdec]
      cases e <;> rfl

/-! ### The agents' own state -/

/-- Settles O57, from the frames `effect_of_bus` and `effect_of_classifier`; the other agents' effects are record
updates of the fields they own. -/
theorem eachAgentWritesOnlyItsOwnState : Obligations.EachAgentWritesOnlyItsOwnState := by
  intro s t i hx
  obtain ⟨-, rfl⟩ := exec_next hx
  refine ⟨fun hbus => ?_, fun hcls => effect_of_classifier s hcls, ?_, ?_, ?_⟩
  · rw [effect_of_bus s hbus]
    refine ⟨rfl, rfl, rfl, rfl, rfl, rfl, rfl, rfl, fun hr => ?_, effect_expOut_of_bus hbus⟩
    have hview := effect_statusView s hr (by rintro rfl; cases hbus) (by rintro b rfl; cases hbus)
    exact congrArg (fun v => v.2.1) hview
  · rintro b rfl
    rfl
  · rintro rfl
    change s.popHead = { s with outQueue := s.popHead.outQueue, expOut := s.popHead.expOut }
    rw [popHead_spec s]
  · rintro (rfl | rfl) <;> rfl

/-! ### The output of a pin, and boot -/

/-- Settles O29: the two cases of `pinOut`. -/
theorem pinOutputIsPwmOrLevel : Obligations.PinOutputIsPwmOrLevel := by
  intro s i
  constructor <;> intro hmode <;> simp [pinOut, hmode, pwmTarget, bitAt]

/-- The banks after boot, element by element (10_state.md R29). -/
theorem boot_banks (cfg : Config) (pointer : Byte) (i : Index) :
    bankGet (State.boot cfg pointer).pwmMode i = false
      ∧ bankGet (State.boot cfg pointer).pwmDuty i = 0x00
      ∧ bankGet (State.boot cfg pointer).win i = []
      ∧ bankGet (State.boot cfg pointer).fwin i = []
      ∧ bankGet (State.boot cfg pointer).active i = false
      ∧ bankGet (State.boot cfg pointer).expOut i = 0x00 := by
  simp [State.boot]

/-- Settles O52: the fields of `State.boot`, and its banks by `boot_banks`. -/
theorem bootValuesAreTheTables : Obligations.BootValuesAreTheTables :=
  ⟨⟨Config.freePointer 0, rfl⟩, fun cfg pointer =>
    ⟨rfl, rfl, rfl, rfl, rfl, rfl, rfl, rfl, boot_banks cfg pointer⟩⟩

/-- The board's parameters meet their constraints (00_scope.md R5). -/
theorem board_wf : Config.board.wf = true := by
  have hz : (0 : Rat) ≤ Config.fifteenHalves := by decide
  have hlo : (0 : Rat) ≤ Config.oneHalf := by decide
  have hhi : Config.oneHalf ≤ (1 : Rat) := by decide
  simp [Config.wf, Config.board, hz, hlo, hhi]

theorem inv_boot {cfg : Config} (pointer : Byte) (h : cfg.wf = true) : Inv (State.boot cfg pointer) where
  board := h
  detectors := by constructor <;> simp [State.boot]
  status := by constructor <;> simp [State.boot, noBitBeyondChannels]
  pins := by constructor <;> simp [State.boot]
  queues := by constructor <;> simp [State.boot]
  channel := channelInv_of_empty rfl

/-- Settles O53: boot of a well-formed board meets the invariant part by part, and reset is boot of the board. -/
theorem bootMeetsTheBlocksInvariant : Obligations.BootMeetsTheBlocksInvariant :=
  ⟨fun _ pointer h => inv_boot pointer h, inv_boot _ board_wf⟩

end Sys2Proof.Machine

/-! ## Facts for the family of the memory: the two stages, the read view, and the orders of the agents -/

namespace Sys2Proof.Machine

/-! ### The bus instructions -/

/-- A bus instruction runs exactly while the bridge is up. -/
theorem enabled_iff_bridgeUp_of_bus {i : Instr} {s : State} (hb : isBus i = true) :
    enabled i s ↔ s.bridgeUp = true := by
  cases i with
  | sampleRs c x | sampleZPrime c x | sampleZ c x | noSample c | cycle | status b | pop | busErr | restart =>
    cases hb
  | _ => exact Iff.rfl

theorem isBus_of_encode {i : Instr} {e : BusEvent} (h : encode i = .bus e) : isBus i = true := by
  simp [isBus, h]

theorem encode_of_isBus {i : Instr} (hb : isBus i = true) : ∃ e, encode i = .bus e := by
  unfold isBus at hb
  split at hb
  · next e he => exact ⟨e, he⟩
  · cases hb

/-! ### The hand-over and the decode stage's turn -/

/-- A bus event that decodes is in the alphabet (30_encoding.md R68). -/
theorem payloadLength_le_of_decode {x : Context} {e : BusEvent} {i : Instr} (h : decode x (.bus e) = .ok i) :
    e.payloadLength ≤ 2 := by
  cases e with
  | request => exact Nat.zero_le 2
  | finish => exact Nat.zero_le 2
  | receive payload =>
    match payload, h with
    | [], _ => exact Nat.zero_le 2
    | [_], _ => exact Nat.le_succ 1
    | [_, _], _ => exact le_rfl

/-- The front end's own latch does not change what an event decodes to (30_encoding.md R62, R64). -/
theorem decode_latch_pointerAfter (s : State) (e : BusEvent) :
    decode (contextOf (s.latch (pointerAfter e s.curAddr)) (.bus e)) (.bus e)
      = decode (contextOf s (.bus e)) (.bus e) := by
  cases e <;> rfl

/-- A bus instruction leaves in `cur_addr` what the front end's latch of its event does. -/
theorem effect_curAddr_of_bus {i : Instr} {e : BusEvent} (s : State) (h : encode i = .bus e) :
    (effect i s).curAddr = pointerAfter e s.curAddr := by
  rw [effect_curAddr, h]
  match e with
  | .receive (_ :: _) | .receive [] | .request | .finish => rfl

/-- A Receive latches its address anyway: an earlier latch does not matter. -/
theorem effect_latch_of_receive {i : Instr} {a : Byte} {l : List Byte} (s : State)
    (h : encode i = .bus (.receive (a :: l))) (b : Byte) : effect i (s.latch b) = effect i s := by
  cases i with
  | recv | rdVerMajor | rdVerMinor | rdVerPatch | rdNchan | rdNout | rdSticky | rdUnknown a | fin
  | sampleRs c x | sampleZPrime c x | sampleZ c x | noSample c | cycle | status b | pop | busErr | restart =>
    cases h
  | _ => rfl

/-- The latch that the front end has made already is part of a bus instruction's own effect. -/
theorem effect_latch_pointerAfter {i : Instr} {e : BusEvent} (s : State) (h : encode i = .bus e) :
    effect i (s.latch (pointerAfter e s.curAddr)) = effect i s := by
  match e with
  | .receive (_ :: _) => exact effect_latch_of_receive s h _
  | .receive [] | .request | .finish => rfl

/-- Handled at the address its own latch gives, with the pointer kept, a bus event is its instruction run whole. -/
theorem runHanded_pointerAfter {s : State} {e : BusEvent} {i : Instr} (hup : s.bridgeUp = true)
    (hdec : decode (contextOf s (.bus e)) (.bus e) = .ok i) :
    runHanded ⟨e, pointerAfter e s.curAddr⟩ (s.latch (pointerAfter e s.curAddr)) = exec i s := by
  have henc : encode i = .bus e := encode_of_decode hdec
  have hon {t : State} (ht : t.bridgeUp = true) : enabled i t :=
    (enabled_iff_bridgeUp_of_bus (isBus_of_encode henc)).mpr ht
  have hrun : runEvent (.bus e) (s.latch (pointerAfter e s.curAddr)) = .next (effect i s) := by
    rw [runEvent, decode_latch_pointerAfter, hdec, ← effect_latch_pointerAfter s henc]
    exact exec_enabled (hon hup)
  calc runHanded ⟨e, pointerAfter e s.curAddr⟩ (s.latch (pointerAfter e s.curAddr))
      = keepPointer (pointerAfter e s.curAddr) (.next (effect i s)) := congrArg _ hrun
    _ = .next (effect i s) := congrArg _ (State.latch_eq_self (effect_curAddr_of_bus s henc))
    _ = exec i s := (exec_enabled (hon hup)).symm

/-- A delivered event of the alphabet is handed over, if the bridge is up and no Request waits. -/
theorem step_deliver {s : State} {e : BusEvent} {rest : List Input} (hin : s.inputs = .deliver e :: rest)
    (hup : s.bridgeUp = true) (hlen : e.payloadLength ≤ 2) (hwait : requestWaits s.busChan = false) :
    step s = .next ({ s with inputs := rest }.handEvent e) := by
  simp [step, fetch, hin, handOver_free hup hlen hwait]

/-- On its turn the decode stage handles the event at the head of `bus_chan`. -/
theorem step_decodeStage {s : State} {h : Handed} {chan : List Handed} {rest : List Input}
    (hin : s.inputs = .decodeStage :: rest) (hchan : s.busChan = h :: chan) :
    step s = runHanded h { s with inputs := rest, busChan := chan } := by
  simp [step, fetch, takeBusEvent, hin, hchan]

/-- Settles O7: the first step is the hand-over to an empty `bus_chan`, the second the decode stage's turn on that
event (`runHanded_pointerAfter`). -/
theorem handOverThenHandleIsOneStage : Obligations.HandOverThenHandleIsOneStage := by
  intro s e rest i hup hchan hin hdec
  have hidle : requestWaits s.busChan = false := by rw [hchan]; rfl
  refine ⟨{ s with inputs := .decodeStage :: rest }.handEvent e,
    step_deliver hin hup (payloadLength_le_of_decode hdec) hidle, ?_⟩
  have hhead : s.busChan ++ [⟨e, pointerAfter e s.curAddr⟩] = [⟨e, pointerAfter e s.curAddr⟩] := by
    rw [hchan, List.nil_append]
  rw [step_decodeStage rfl hhead, ← hchan]
  exact runHanded_pointerAfter (s := { s with inputs := rest }) hup hdec

/-! ### The read view -/

/-- The addresses of the R rows, one by one (20_memory.md R42). -/
theorem readRow_iff (a : Byte) :
    (a.toNat ≤ 0x04 ∨ a.toNat = 0x10)
      ↔ a = 0x00 ∨ a = 0x01 ∨ a = 0x02 ∨ a = 0x03 ∨ a = 0x04 ∨ a = 0x10 := by
  bv_omega

/-- Settles O17: at each of the six addresses of `readRow_iff` the view is one byte, and at any other address no case
of it applies but the last. -/
theorem readViewIsOneByteOrTheSentinel : Obligations.ReadViewIsOneByteOrTheSentinel := by
  intro s a
  rw [readRow_iff]
  constructor
  · rintro (rfl | rfl | rfl | rfl | rfl | rfl) <;> rfl
  · intro hno
    simp only [not_or] at hno
    simp only [readView, hno, if_false, sentinel]

/-- A Receive does not write sticky. -/
theorem effect_sticky_of_receive {i : Instr} {payload : List Byte} (s : State)
    (h : encode i = .bus (.receive payload)) : (effect i s).sticky = s.sticky := by
  have hview : statusView (effect i s) = statusView s :=
    effect_statusView s (by rintro rfl; cases h) (by rintro rfl; cases h) (by rintro b rfl; cases h)
  exact congrArg (fun v => v.2.1) hview

/-- Settles O26: the view reads the parameters, which nothing writes, and sticky, which no Receive writes. -/
theorem noWriteChangesTheReadView : Obligations.NoWriteChangesTheReadView := by
  intro s t a v b hx
  obtain ⟨-, rfl⟩ := exec_next hx
  exact readView_congr (effect_cfg _ s) (effect_sticky_of_receive s (encode_decodeWrite a v)) b

/-! ### The same write twice -/

/-- A bus instruction whose effect is idempotent runs again and changes nothing. -/
theorem exec_again_of_bus {i : Instr} {s t : State} (hb : isBus i = true)
    (hidem : effect i (effect i s) = effect i s) (hx : exec i s = .next t) : exec i t = .next t := by
  obtain ⟨hon, rfl⟩ := exec_next hx
  obtain ⟨e, he⟩ := encode_of_isBus hb
  have hup : (effect i s).bridgeUp = true :=
    (effect_channel_of_bus s he).2.trans ((enabled_iff_bridgeUp_of_bus hb).mp hon)
  exact (exec_enabled ((enabled_iff_bridgeUp_of_bus hb).mpr hup)).trans (congrArg _ hidem)

theorem localLevels_idem (cfg : Config) (mode : Bank Bool) (levels v : Byte) :
    localLevels cfg mode (localLevels cfg mode levels v) v = localLevels cfg mode levels v := by
  apply byte_ext
  intro i
  cases hon : honoured cfg mode i <;> simp [bitAt_localLevels, hon]

theorem writePwm_idem (s : State) (n : Index) (v : Byte) : (s.writePwm n v).writePwm n v = s.writePwm n v := by
  cases hon : pwmHonoured s.cfg n <;> simp [writePwm_spec, hon, bankSet_bankSet]

theorem effect_wrLocal_idem (s : State) (v : Byte) :
    effect (.wrLocal v) (effect (.wrLocal v) s) = effect (.wrLocal v) s :=
  congrArg (fun levels => { s.latch 0x20 with pinLevel := levels }) (localLevels_idem s.cfg s.pwmMode s.pinLevel v)

theorem effect_wrPwm_idem (s : State) (n : Index) (v : Byte) :
    effect (wrPwm n v) (effect (wrPwm n v) s) = effect (wrPwm n v) s := by
  have hptr : ((s.latch (pwmAddress n)).writePwm n v).curAddr = pwmAddress n := writePwm_curAddr _ n v
  simp only [effect_wrPwm]
  rw [State.latch_eq_self hptr, writePwm_idem]

theorem isBus_wrPwm (n : Index) (v : Byte) : isBus (wrPwm n v) = true := by
  fin_cases n <;> rfl

/-- Settles O27: both writes have an idempotent effect. -/
theorem secondEqualActuatorWriteChangesNothing : Obligations.SecondEqualActuatorWriteChangesNothing :=
  fun s _ v => ⟨exec_again_of_bus rfl (effect_wrLocal_idem s v),
    fun n => exec_again_of_bus (isBus_wrPwm n v) (effect_wrPwm_idem s n v)⟩

/-! ### Bus events and the classifier side, in either order -/

/-- The state with the classifier side's fields (10_state.md R10) taken from `u`. -/
def State.withClassifier (s u : State) : State :=
  { s with win := u.win, fwin := u.fwin, active := u.active, statusPending := u.statusPending }

theorem popHead_withClassifier (s u : State) : (s.withClassifier u).popHead = s.popHead.withClassifier u := by
  cases h : s.outQueue with
  | nil => rw [popHead_nil h, popHead_nil (s := s.withClassifier u) h]
  | cons r rest => rw [popHead_cons h, popHead_cons (s := s.withClassifier u) h]; rfl

theorem emitOutput_withClassifier (s u : State) (r : OutputRequest) :
    (s.withClassifier u).emitOutput r = (s.emitOutput r).withClassifier u := by
  by_cases hroom : s.outQueue.length < s.cfg.queueCap
  · rw [emitOutput_room hroom, emitOutput_room (s := s.withClassifier u) hroom]
    rfl
  · rw [emitOutput_full hroom, emitOutput_full (s := s.withClassifier u) hroom, popHead_withClassifier]
    change (if Config.freeSendWaits s.draws then _ else _) = _
    split <;> rfl

theorem writePwm_withClassifier (s u : State) (n : Index) (v : Byte) :
    (s.withClassifier u).writePwm n v = (s.writePwm n v).withClassifier u := by
  simp only [writePwm_spec]
  rfl

/-- A bus instruction neither reads nor writes the classifier side's fields. -/
theorem effect_withClassifier_of_bus {i : Instr} (s u : State) (hb : isBus i = true) :
    effect i (s.withClassifier u) = (effect i s).withClassifier u := by
  cases i with
  | wrExp0 v | wrExp1 v | wrExp2 v | wrExp3 v | wrExp4 v | wrExp5 v | wrExp6 v | wrExp7 v =>
    exact emitOutput_withClassifier (s.latch _) u _
  | wrPwm0 v | wrPwm1 v | wrPwm2 v | wrPwm3 v | wrPwm4 v | wrPwm5 v | wrPwm6 v | wrPwm7 v =>
    exact writePwm_withClassifier (s.latch _) u _ v
  | sampleRs c x | sampleZPrime c x | sampleZ c x | noSample c | cycle | status b | pop | busErr | restart =>
    cases hb
  | _ => rfl

/-- A step of the classifier side reads its own fields and the parameters alone, and writes its own fields alone. -/
theorem effect_withClassifier_of_classifier {j : Instr} {s t : State} (hj : isClassifier j = true)
    (hcfg : t.cfg = s.cfg) : effect j (t.withClassifier s) = t.withClassifier (effect j s) := by
  cases s; cases t; cases hcfg
  cases j with
  | sampleRs c x | sampleZPrime c x | sampleZ c x | noSample c | cycle => rfl
  | _ => cases hj

theorem enabled_withClassifier {j : Instr} {s t : State} (hj : isClassifier j = true) (hcfg : t.cfg = s.cfg)
    (h : enabled j s) : enabled j (t.withClassifier s) := by
  cases s; cases t; cases hcfg
  cases j with
  | sampleRs c x | sampleZPrime c x | sampleZ c x | noSample c | cycle => exact h
  | _ => cases hj

/-- A bus instruction leaves the classifier side's fields. -/
theorem withClassifier_effect_of_bus {i : Instr} (s : State) (hb : isBus i = true) :
    (effect i s).withClassifier s = effect i s :=
  (effect_withClassifier_of_bus s s hb).symm

/-- A bus instruction and a step of the classifier side have the same effect in either order. -/
theorem effect_comm_of_bus_of_classifier {i j : Instr} (s : State) (hb : isBus i = true)
    (hj : isClassifier j = true) : effect i (effect j s) = effect j (effect i s) :=
  calc effect i (effect j s)
      = effect i (s.withClassifier (effect j s)) := congrArg (effect i) (effect_of_classifier s hj)
    _ = (effect i s).withClassifier (effect j s) := effect_withClassifier_of_bus s _ hb
    _ = effect j ((effect i s).withClassifier s) :=
        (effect_withClassifier_of_classifier hj (effect_cfg i s)).symm
    _ = effect j (effect i s) := congrArg (effect j) (withClassifier_effect_of_bus s hb)

/-- An event SAMPLE selects its row by the parameters and the classifier side's fields alone. -/
theorem sampleRow_withClassifier {s t : State} (hcfg : t.cfg = s.cfg) (c : Index) :
    sampleRow (t.withClassifier s) c = sampleRow s c := by
  cases s; cases t; cases hcfg
  rfl

theorem runEvent_sample (s : State) (c : Index) (x : Raw) :
    runEvent (.internal (.sample c x)) s = exec (decodeSample c x (sampleRow s c)) s := rfl

theorem isClassifier_decodeSample (c : Index) (x : Raw) (row : SampleRow) :
    isClassifier (decodeSample c x row) = true := by
  cases row <;> rfl

/-- Settles O58: after the bus instruction the event SAMPLE selects the same row and may run, after the sample the bus
instruction may, and their effects commute (`effect_comm_of_bus_of_classifier`). -/
theorem busEventsAndSamplesCommute : Obligations.BusEventsAndSamplesCommute := by
  intro s t u i c x hb hx hsample
  rw [runEvent_sample] at hsample
  have hcls := isClassifier_decodeSample c x (sampleRow s c)
  obtain ⟨hi, rfl⟩ := exec_next hx
  obtain ⟨hj, rfl⟩ := exec_next hsample
  refine ⟨effect (decodeSample c x (sampleRow s c)) (effect i s), ?_, ?_⟩
  · rw [← withClassifier_effect_of_bus s hb, runEvent_sample, sampleRow_withClassifier (effect_cfg i s)]
    exact exec_enabled (enabled_withClassifier hcls (effect_cfg i s) hj)
  · rw [← effect_comm_of_bus_of_classifier s hb hcls]
    refine exec_enabled ((enabled_iff_bridgeUp_of_bus hb).mpr ?_)
    rw [effect_of_classifier s hcls]
    exact (enabled_iff_bridgeUp_of_bus (s := s) hb).mp hi

end Sys2Proof.Machine

/-! ## Facts for the family of the encoding: the rows of the register map, the refusals, a Request, the samples -/

namespace Sys2Proof.Machine

/-! ### The rows of the register map -/

/-- The addresses with an R row, one by one (20_memory.md R42). -/
theorem hasReadRow_iff (a : Byte) :
    hasReadRow a = true ↔ a = 0x00 ∨ a = 0x01 ∨ a = 0x02 ∨ a = 0x03 ∨ a = 0x04 ∨ a = 0x10 := by
  rw [← readRow_iff]
  simp [hasReadRow]

/-- The addresses with a W row, one by one (20_memory.md R42). -/
theorem hasWriteRow_iff (a : Byte) :
    hasWriteRow a = true
      ↔ a = 0x20 ∨ a = 0x21 ∨ a = 0x22 ∨ a = 0x23 ∨ a = 0x24 ∨ a = 0x25 ∨ a = 0x26 ∨ a = 0x27 ∨ a = 0x28
        ∨ a = 0x30 ∨ a = 0x31 ∨ a = 0x32 ∨ a = 0x33 ∨ a = 0x34 ∨ a = 0x35 ∨ a = 0x36 ∨ a = 0x37 := by
  simp only [hasWriteRow, Bool.or_eq_true, Bool.and_eq_true, decide_eq_true_eq]
  bv_omega

theorem decodeRead_of_noRow {a : Byte} (h : hasReadRow a = false) : decodeRead a = .rdUnknown a := by
  unfold decodeRead
  split
  case h_7 => rfl
  all_goals cases h

theorem decodeWrite_of_noRow {a : Byte} (v : Byte) (h : hasWriteRow a = false) :
    decodeWrite a v = .wrIgnored a v := by
  unfold decodeWrite
  split
  case h_18 => rfl
  all_goals cases h

theorem wf_decodeRead (a : Byte) : (decodeRead a).wf = true := by
  cases h : hasReadRow a with
  | false => simp [decodeRead_of_noRow h, Instr.wf, h]
  | true => rcases (hasReadRow_iff a).mp h with rfl | rfl | rfl | rfl | rfl | rfl <;> rfl

theorem wf_decodeWrite (a v : Byte) : (decodeWrite a v).wf = true := by
  cases h : hasWriteRow a with
  | false => simp [decodeWrite_of_noRow v h, Instr.wf, h]
  | true =>
    rcases (hasWriteRow_iff a).mp h with rfl | rfl | rfl | rfl | rfl | rfl | rfl | rfl | rfl | rfl | rfl | rfl
      | rfl | rfl | rfl | rfl | rfl <;> rfl

/-- A Request selects its row by the pointer. -/
theorem selectedIn_decodeRead {x : Context} {a : Byte} (h : x.curAddr = a) :
    (decodeRead a).selectedIn x = true := by
  unfold decodeRead
  split <;> exact decide_eq_true h

/-- A write is selected by its event alone. -/
theorem selectedIn_decodeWrite (x : Context) (a v : Byte) : (decodeWrite a v).selectedIn x = true := by
  unfold decodeWrite
  split <;> rfl

/-! ### Decode and encode -/

/-- In a context that selects a SAMPLE row the event SAMPLE decodes to that row. -/
theorem decodeSample_of_selected {x : Context} {c : Index} {v : Raw} {row : SampleRow}
    (h : (decodeSample c v row).selectedIn x = true) :
    decodeSample c v x.sampleRow = decodeSample c v row := by
  cases row <;> exact congrArg (decodeSample c v) (of_decide_eq_true h)

/-- A Request decodes to the row of the pointer (30_encoding.md R62). -/
theorem decode_request {x : Context} {a : Byte} (h : x.curAddr = a) :
    decode x (.bus .request) = .ok (decodeRead a) := by
  subst h
  rfl

/-- Settles O1: the default rows by well-formedness (`decodeWrite_of_noRow`, `decodeRead_of_noRow`), the read and
SAMPLE rows by the context that selects them, every other row by its event alone. -/
theorem decodeOfEncodeIsInstruction : Obligations.DecodeOfEncodeIsInstruction := by
  intro x i hwf hsel
  cases i with
  | wrIgnored a v =>
    have hno : hasWriteRow a = false := by simpa [Instr.wf] using hwf
    exact congrArg Except.ok (decodeWrite_of_noRow v hno)
  | rdUnknown a =>
    have hno : hasReadRow a = false := by simpa [Instr.wf] using hwf
    exact (decode_request (of_decide_eq_true hsel)).trans (congrArg Except.ok (decodeRead_of_noRow hno))
  | rdVerMajor | rdVerMinor | rdVerPatch | rdNchan | rdNout | rdSticky =>
    exact decode_request (of_decide_eq_true hsel)
  | sampleRs c v => exact congrArg Except.ok (decodeSample_of_selected (row := .rankSpread) hsel)
  | sampleZPrime c v => exact congrArg Except.ok (decodeSample_of_selected (row := .zPriming) hsel)
  | sampleZ c v => exact congrArg Except.ok (decodeSample_of_selected (row := .zFull) hsel)
  | _ => rfl

/-- What an event decodes to is well formed and selected by the context: the cases of the decoder. -/
theorem wf_and_selectedIn_of_decode {x : Context} {e : Event} {i : Instr} (h : decode x e = .ok i) :
    i.wf = true ∧ i.selectedIn x = true := by
  cases e with
  | internal e =>
    cases h
    cases e with
    | sample c v => cases hr : x.sampleRow <;> exact ⟨rfl, decide_eq_true hr⟩
    | _ => exact ⟨rfl, rfl⟩
  | bus e =>
    match e, h with
    | .request, h => cases h; exact ⟨wf_decodeRead _, selectedIn_decodeRead rfl⟩
    | .finish, h => cases h; exact ⟨rfl, rfl⟩
    | .receive [], h => cases h; exact ⟨rfl, rfl⟩
    | .receive [a], h => cases h; exact ⟨rfl, rfl⟩
    | .receive [a, v], h => cases h; exact ⟨wf_decodeWrite a v, selectedIn_decodeWrite x a v⟩

/-- Settles O2: `encode_of_decode` and `wf_and_selectedIn_of_decode`. -/
theorem encodeOfDecodeIsEvent : Obligations.EncodeOfDecodeIsEvent :=
  fun _ _ _ h => ⟨encode_of_decode h, wf_and_selectedIn_of_decode h⟩

/-- Settles O4: the decoder evaluates each word. -/
theorem tableWordsDecodeToTheirRows : Obligations.TableWordsDecodeToTheirRows :=
  ⟨rfl, rfl, rfl, rfl, rfl, rfl, rfl, rfl, rfl, rfl⟩

/-! ### What is refused -/

/-- A Receive with more than two payload bytes is rejected by the decoder (30_encoding.md R68). -/
theorem decode_long {payload : List Byte} (x : Context) (h : 3 ≤ payload.length) :
    decode x (.bus (.receive payload)) = .error (.payloadTooLong payload.length) := by
  match payload, h with
  | _ :: _ :: _ :: _, _ => rfl

/-- Every event of the alphabet decodes (30_encoding.md R67). -/
theorem exists_decode (x : Context) {e : Event}
    (h : ∀ payload, e = .bus (.receive payload) → payload.length ≤ 2) :
    ∃ i, decode x e = .ok i := by
  match e with
  | .internal _ | .bus .request | .bus .finish | .bus (.receive []) | .bus (.receive [_])
  | .bus (.receive [_, _]) => exact ⟨_, rfl⟩
  | .bus (.receive (a :: b :: c :: l)) => exact absurd (h _ rfl) (by simp)

/-- The decoder rejects nothing but a Receive with more than two payload bytes. -/
theorem three_le_of_decode_error {x : Context} {e : Event} {n : Nat}
    (h : decode x e = .error (.payloadTooLong n)) : 3 ≤ n := by
  match e, h with
  | .bus (.receive (a :: b :: c :: l)), h => cases h; simp

theorem runEvent_refused {e : Event} {s : State} {r : Refusal} (h : runEvent e s = .refused r) :
    ∃ n, 3 ≤ n ∧ r = .payloadTooLong n := by
  unfold runEvent at h
  split at h
  · exact absurd h (exec_not_refused _ s r)
  · next n hdec => cases h; exact ⟨n, three_le_of_decode_error hdec, rfl⟩

theorem keepPointer_refused {pointer : Byte} {o : Host.Outcome State Fault Refusal} {r : Refusal}
    (h : keepPointer pointer o = .refused r) : o = .refused r := by
  cases o with
  | refused q => exact h
  | _ => cases h

theorem takeBusEvent_ne_outside (s : State) (r : Refusal) : takeBusEvent s ≠ .outside r := by
  unfold takeBusEvent
  split <;> simp

theorem handOver_outside {s : State} {e : BusEvent} {rest : List Input} {r : Refusal}
    (h : handOver s e rest = .outside r) : 3 ≤ e.payloadLength ∧ r = .payloadTooLong e.payloadLength := by
  unfold handOver at h
  split at h
  · split at h
    · split at h
      · exact absurd h (takeBusEvent_ne_outside s r)
      · cases h
    · next hl => cases h; exact ⟨not_le.mp hl, rfl⟩
  · cases h

/-- The fetch refuses at the hand-over alone. -/
theorem fetch_outside {s : State} {r : Refusal} (h : fetch s = .outside r) :
    ∃ n, 3 ≤ n ∧ r = .payloadTooLong n := by
  unfold fetch at h
  split at h
  · cases h
  · exact ⟨_, handOver_outside h⟩
  · exact absurd h (takeBusEvent_ne_outside _ r)
  · cases h

/-- A step refuses at the hand-over or in the decoder, each time a Receive with more than two payload bytes. -/
theorem step_refused {s : State} {r : Refusal} (h : step s = .refused r) :
    ∃ n, 3 ≤ n ∧ r = .payloadTooLong n := by
  unfold step at h
  split at h
  · cases h
  · cases h
  · exact runEvent_refused (keepPointer_refused h)
  · exact runEvent_refused h
  · cases h
  · next hf => cases h; exact fetch_outside hf

theorem step_deliver_long {s : State} {e : BusEvent} {rest : List Input} (hup : s.bridgeUp = true)
    (hlen : 3 ≤ e.payloadLength) (hin : s.inputs = .deliver e :: rest) :
    step s = .refused (.payloadTooLong e.payloadLength) := by
  have hlong : ¬e.payloadLength ≤ 2 := not_le.mpr hlen
  simp [step, fetch, hin, handOver, hup, hlong]

theorem runHanded_long {payload : List Byte} (a : Byte) (s : State) (hlen : 3 ≤ payload.length) :
    runHanded ⟨.receive payload, a⟩ s = .refused (.payloadTooLong payload.length) := by
  simp [runHanded, runEvent, decode_long _ hlen, keepPointer]

/-- Settles O3: `decode_long` and `exists_decode` for the decoder, `step_deliver_long` and `runHanded_long` for the two
turns; `exec_not_refused` and `step_refused` say that there is no other refusal. -/
theorem onlyLongReceiveIsRefused : Obligations.OnlyLongReceiveIsRefused := by
  refine ⟨fun x _ => decode_long x, fun x _ => exists_decode x, fun s payload rest hup hlen hin => ?_,
    fun s payload a chan rest hlen hin hchan => ?_, exec_not_refused, fun _ _ => step_refused⟩
  · exact step_deliver_long (e := .receive payload) hup hlen hin
  · rw [step_decodeStage hin hchan]
    exact runHanded_long a _ hlen

/-! ### A Request -/

/-- The view at an address with no R row (42_register_reads.md R132). -/
theorem readView_of_noRow (s : State) {a : Byte} (h : hasReadRow a = false) : readView s a = sentinel :=
  (readViewIsOneByteOrTheSentinel s a).2 (by simpa [hasReadRow] using h)

/-- A Request replies the read view of its address, and at 0x10 settles sticky (41_bus_events.md R114). -/
theorem effect_decodeRead (a : Byte) (s : State) :
    effect (decodeRead a) s
      = { s with
          replies := s.replies ++ [readView s a]
          sticky := if a = 0x10 then s.lastRaw else s.sticky } := by
  cases h : hasReadRow a with
  | false =>
    have h10 : a ≠ 0x10 := by rintro rfl; cases h
    rw [decodeRead_of_noRow h, readView_of_noRow s h, if_neg h10]
    rfl
  | true => rcases (hasReadRow_iff a).mp h with rfl | rfl | rfl | rfl | rfl | rfl <;> rfl

theorem exec_decodeRead {s : State} (a : Byte) (hup : s.bridgeUp = true) :
    exec (decodeRead a) s = .next (effect (decodeRead a) s) :=
  exec_enabled ((enabled_iff_bridgeUp_of_bus (isBus_of_encode (encode_decodeRead a))).mpr hup)

/-- A Request that was handed over is answered at its attached address; the pointer stays. -/
theorem runHanded_request {s : State} (p : Byte) (hup : s.bridgeUp = true) :
    runHanded ⟨.request, p⟩ s
      = .next { s with
          replies := s.replies ++ [readView s p]
          sticky := if p = 0x10 then s.lastRaw else s.sticky } :=
  calc runHanded ⟨.request, p⟩ s
      = keepPointer s.curAddr (.next (effect (decodeRead p) (s.latch p))) :=
        congrArg _ (exec_decodeRead (s := s.latch p) p hup)
    _ = _ := by rw [effect_decodeRead]; rfl

/-- Settles O60: the decode stage's turn on a Request (`runHanded_request`). -/
theorem requestIsAnsweredAtTheAttachedAddress : Obligations.RequestIsAnsweredAtTheAttachedAddress := by
  intro s p chan rest hup hin hchan
  rw [step_decodeStage hin hchan]
  exact runHanded_request p hup

/-! ### The turns of the front end and of the decode stage -/

theorem requestWaits_iff {chan : List Handed} : requestWaits chan = true ↔ ∃ h ∈ chan, h.event = .request := by
  simp [requestWaits]

theorem step_idle {s : State} (hin : s.inputs = []) : step s = .next s := by
  simp [step, fetch, hin]

theorem step_decodeStage_empty {s : State} {rest : List Input} (hin : s.inputs = .decodeStage :: rest)
    (hchan : s.busChan = []) : step s = .next { s with inputs := rest } := by
  simp [step, fetch, hin, takeBusEvent, hchan]

/-- While a Request waits, a delivered event stays with the bus and the decode stage handles the head of `bus_chan`
(20_memory.md R57). -/
theorem step_deliver_held {s : State} {e : BusEvent} {h : Handed} {chan : List Handed} {rest : List Input}
    (hin : s.inputs = .deliver e :: rest) (hup : s.bridgeUp = true) (hlen : e.payloadLength ≤ 2)
    (hwait : requestWaits s.busChan = true) (hchan : s.busChan = h :: chan) :
    step s = runHanded h { s with busChan := chan } := by
  have hfetch : fetch s = takeBusEvent s := by
    simp only [fetch, hin]
    exact handOver_holds hup hlen hwait
  simp [step, hfetch, takeBusEvent, hchan]

/-- Settles O6: `step_deliver` when no Request waits; when one does, both steps handle the head of `bus_chan`
(`step_deliver_held`, `step_decodeStage`); the waiting steps change nothing. -/
theorem deliveredEventJoinsTheChannel : Obligations.DeliveredEventJoinsTheChannel := by
  refine ⟨fun s e rest hup hlen hin hno => ?_, fun s e rest h hup hlen hin hmem hreq => ?_,
    fun _ _ => step_decodeStage_empty, fun _ => step_idle⟩
  · have hwait : requestWaits s.busChan = false := by simpa [requestWaits] using hno
    refine ⟨pointerAfter e s.curAddr, step_deliver hin hup hlen hwait, ?_⟩
    match e with
    | .receive (_ :: _) | .receive [] | .request | .finish => rfl
  · have hwait : requestWaits s.busChan = true := requestWaits_iff.mpr ⟨h, hmem, hreq⟩
    obtain ⟨k, chan, hchan⟩ := requestWaits_cons hwait
    rw [step_deliver_held hin hup hlen hwait hchan]
    exact (step_decodeStage (s := { s with inputs := .decodeStage :: s.inputs }) rfl hchan).symm

/-! ### Where a sample has no step -/

theorem onChannel_absent {c : Index} {s t : State} (h : s.cfg.nChannels.val ≤ c.val) :
    onChannel c s t = .fault .noSuchChannel := by
  simp [onChannel, not_lt.mpr h]

theorem onRow_unselected {selected : Bool} {o : Host.Outcome State Fault Refusal} (h : ¬selected = true) :
    onRow selected o = .fault .sampleRowNotSelected := by
  simp [onRow, h]

/-- An event SAMPLE selects a row whose condition holds: only the channel's guard is left. -/
theorem runEvent_sample_onChannel (s : State) (c : Index) (x : Raw) :
    runEvent (.internal (.sample c x)) s = onChannel c s (effect (decodeSample c x (sampleRow s c)) s) := by
  rw [runEvent_sample]
  unfold sampleRow
  split
  · next hrs => exact onRow_selected (rankRow_iff.mpr hrs)
  · next hz =>
    split
    · next hlen => exact onRow_selected (primingRow_iff.mpr ⟨hz, hlen⟩)
    · next hlen => exact onRow_selected (scoredRow_iff.mpr ⟨hz, not_lt.mp hlen⟩)

/-- Settles O59: the channel's guard (`onChannel_absent`), the only one left for an event SAMPLE, and the rows'
conditions (`onRow_unselected`). -/
theorem sampleStopsOffTheBoardAndOffItsRow : Obligations.SampleStopsOffTheBoardAndOffItsRow := by
  intro s c x
  refine ⟨fun hc => ⟨onChannel_absent hc, ?_⟩, fun hs => ?_, fun hp => ?_, fun hf => ?_⟩
  · exact (runEvent_sample_onChannel s c x).trans (onChannel_absent hc)
  · exact onRow_unselected (mt rankRow_iff.mp hs)
  · exact onRow_unselected (mt primingRow_iff.mp hp)
  · exact onRow_unselected (mt scoredRow_iff.mp hf)

end Sys2Proof.Machine

/-! ## Facts for the family of the classifier: samples, windows, the two detectors, the status byte -/

namespace Sys2Proof.Machine

/-! ### Raw samples and window insertion -/

/-- Settles O33: the unsigned reading is the definition's, the signed one is two's complement of 16 bits
(`BitVec.toInt_eq_toNat_cond`). -/
theorem sampleValueIsSignedOrUnsigned : Obligations.SampleValueIsSignedOrUnsigned := by
  intro x
  refine ⟨rfl, ?_⟩
  have hsigned : val16 true x =
      if 2 * x.toNat < 2 ^ 16 then (x.toNat : Int) else (x.toNat : Int) - (2 ^ 16 : Nat) :=
    x.toInt_eq_toNat_cond
  rw [hsigned]
  split <;> split <;> omega

/-- Insertion into a full window: the oldest entry goes. -/
theorem push_full {α : Type} {w : List α} (v : α) {size : Nat} (h : size < w.length + 1) :
    push w v size = (w ++ [v]).drop 1 := by
  simp [push, h]

/-- Insertion into a window with room: no entry goes. -/
theorem push_room {α : Type} {w : List α} (v : α) {size : Nat} (h : w.length + 1 ≤ size) :
    push w v size = w ++ [v] := by
  simp [push, not_lt.mpr h]

/-- Settles O34: a window that is full (`push_full`) or has room (`push_room`); within its size the entries to drop
are one or none. -/
theorem windowKeepsTheNewestEntries : Obligations.WindowKeepsTheNewestEntries := by
  intro α w v size
  refine ⟨push_full v, push_room v, fun hw => ⟨push_length_le w v hw, ?_⟩⟩
  obtain hlt | heq := Nat.lt_or_eq_of_le hw
  · rw [push_room v hlt, Nat.sub_eq_zero_of_le hlt, List.drop_zero]
  · rw [push_full v (by omega), show w.length + 1 - size = 1 by omega]

/-- A window with room for one entry is not empty after insertion. -/
theorem push_ne_nil {α : Type} (w : List α) (v : α) {size : Nat} (h : 1 ≤ size) : push w v size ≠ [] :=
  List.ne_nil_of_mem (self_mem_push w v h)

/-- A window whose entries all equal the value inserted keeps that. -/
theorem forall_mem_push_eq {α : Type} {w : List α} {v : α} (size : Nat) (h : ∀ u ∈ w, u = v) :
    ∀ u ∈ push w v size, u = v :=
  fun u hu => (mem_push hu).elim (h u) id

/-! ### The rank/spread detector -/

/-- The spread exceeds a bound exactly when two entries differ by more than the bound. -/
theorem lt_spread_iff {l : List Int} (hl : l ≠ []) (bound : Int) :
    bound < spread l ↔ ∃ a ∈ l, ∃ b ∈ l, bound < a - b := by
  obtain ⟨hle, a, ha, b, hb, hab⟩ := spread_spec hl
  exact ⟨fun h => ⟨a, ha, b, hb, hab ▸ h⟩, fun ⟨a, ha, b, hb, h⟩ => h.trans_le (hle a ha b hb)⟩

/-- The entries of a window that are strictly greater than a raw sample. -/
theorem higher_map (window : List Raw) (f : Raw → Int) (x : Raw) :
    higher (window.map f) (f x) = (window.filter fun e => decide (f x < f e)).length := by
  rw [higher, List.countP_map, List.countP_eq_length_filter]
  rfl

/-- The rank/spread decision on a window that is not empty, in the words of 40_classifier.md R84. -/
theorem rankSpreadActive_iff {cfg : Config} {window : List Raw} (x : Raw) (hw : window ≠ []) :
    rankSpreadActive cfg window x = true ↔
      (∃ a ∈ window, ∃ b ∈ window,
        cfg.spreadThreshold < val16 cfg.sampleSigned a - val16 cfg.sampleSigned b)
      ∧ (cfg.wRs : Int) - cfg.delta
        < (window.filter fun e => decide (val16 cfg.sampleSigned x < val16 cfg.sampleSigned e)).length := by
  have hspread := lt_spread_iff (l := window.map (val16 cfg.sampleSigned)) (by simpa using hw)
    cfg.spreadThreshold
  simp [rankSpreadActive, hspread, higher_map]

theorem effect_sampleRs_win (c : Index) (x : Raw) (s : State) :
    bankGet (effect (.sampleRs c x) s).win c = push (bankGet s.win c) x s.cfg.wRs :=
  bankGet_bankSet_same _ _ _

theorem effect_sampleRs_active (c : Index) (x : Raw) (s : State) :
    bankGet (effect (.sampleRs c x) s).active c
      = rankSpreadActive s.cfg (push (bankGet s.win c) x s.cfg.wRs) x :=
  bankGet_bankSet_same _ _ _

/-- Settles O35: the row runs (`exec_enabled`), and the flag is the decision of R84 (`rankSpreadActive_iff`). -/
theorem rankSpreadSampleSetsTheFlag : Obligations.RankSpreadSampleSetsTheFlag :=
  fun _ _ x hs hw hc hp =>
    ⟨_, exec_enabled (i := .sampleRs _ x) ⟨rankRow_iff.mpr hs, hc, hp⟩,
      rankSpreadActive_iff x (push_ne_nil _ x hw)⟩

/-- Fewer entries than the window holds are strictly greater than one of them. -/
theorem length_filter_greater_lt {α : Type} {w : List α} {x : α} (f : α → Int) (hx : x ∈ w) :
    (w.filter fun e => decide (f x < f e)).length < w.length :=
  List.length_filter_lt_length_iff_exists.mpr ⟨x, hx, by simp⟩

/-- Settles O36: the sample is in its own window and not above itself, so at most len − 1 entries are above it
(`length_filter_greater_lt`), too few for the rank test. -/
theorem rankSpreadNeedsEnoughSamples : Obligations.RankSpreadNeedsEnoughSamples := by
  intro s t c x hw hx hlen
  obtain ⟨-, rfl⟩ := exec_next hx
  rw [effect_sampleRs_win] at hlen
  rw [effect_sampleRs_active, Bool.eq_false_iff, Ne, rankSpreadActive_iff x (push_ne_nil _ x hw)]
  rintro ⟨-, hrank⟩
  have habove := length_filter_greater_lt (val16 s.cfg.sampleSigned) (self_mem_push (bankGet s.win c) x hw)
  omega

/-! ### A step down of a flat signal -/

/-- Channel c may take a sample under the rank/spread strategy, and its window is full: m entries of a flat signal
`hi`, then k of `lo`, which is lower by more than the threshold. -/
structure SteppedDown (c : Index) (hi lo : Raw) (m k : Nat) (s : State) : Prop where
  strategy : s.cfg.strategy = .rankSpread
  size : m + k = s.cfg.wRs
  channel : c.val < s.cfg.nChannels.val
  free : s.statusPending = none
  window : bankGet s.win c = List.replicate m hi ++ List.replicate k lo
  threshold : 0 ≤ s.cfg.spreadThreshold
  drop : s.cfg.spreadThreshold < val16 s.cfg.sampleSigned hi - val16 s.cfg.sampleSigned lo

section
variable {c : Index} {hi lo : Raw} {m k : Nat} {s : State}

theorem SteppedDown.runs (h : SteppedDown c hi lo m k s) :
    exec (.sampleRs c lo) s = .next (effect (.sampleRs c lo) s) :=
  exec_enabled ⟨rankRow_iff.mpr h.strategy, h.channel, h.free⟩

/-- The sample `lo` pushes the oldest entry out of the full window. -/
theorem SteppedDown.push_window (h : SteppedDown c hi lo (m + 1) k s) :
    push (bankGet s.win c) lo s.cfg.wRs = List.replicate m hi ++ List.replicate (k + 1) lo := by
  have hfull : s.cfg.wRs < (bankGet s.win c).length + 1 := by
    rw [h.window, ← h.size]
    simp
  rw [push_full lo hfull, h.window, List.replicate_succ, List.replicate_succ']
  simp

/-- The sample keeps the shape: one entry of `hi` less, one of `lo` more. -/
theorem SteppedDown.sample (h : SteppedDown c hi lo (m + 1) k s) :
    SteppedDown c hi lo m (k + 1) (effect (.sampleRs c lo) s) where
  strategy := h.strategy
  size := by rw [effect_cfg, ← h.size]; omega
  channel := h.channel
  free := h.free
  window := (effect_sampleRs_win c lo s).trans h.push_window
  threshold := h.threshold
  drop := h.drop

/-- While an entry of `hi` is left the flag is the rank test on their number: the spread test holds. -/
theorem SteppedDown.active_iff (h : SteppedDown c hi lo (m + 1) k s) (hm : 0 < m) :
    bankGet (effect (.sampleRs c lo) s).active c = true ↔ (s.cfg.wRs : Int) - s.cfg.delta < m := by
  have habove : val16 s.cfg.sampleSigned lo < val16 s.cfg.sampleSigned hi := by
    have := h.threshold
    have := h.drop
    omega
  have hrank : ((List.replicate m hi ++ List.replicate (k + 1) lo).filter fun e =>
      decide (val16 s.cfg.sampleSigned lo < val16 s.cfg.sampleSigned e)).length = m := by
    simp [habove]
  rw [effect_sampleRs_active, h.push_window, rankSpreadActive_iff lo (by simp), hrank]
  exact and_iff_right ⟨hi, by simp [hm.ne'], lo, by simp, h.drop⟩

end

/-- Settles O37: the three samples leave 8, 7 and 6 entries above them, and the rank test asks for more than
9 − 3 = 6 (`SteppedDown.active_iff`). -/
theorem stepDownIsActiveForTwoSamples : Obligations.StepDownIsActiveForTwoSamples := by
  intro s c hi lo hs hw hdelta hthreshold hc hp hwin hstep
  have h₀ : SteppedDown c hi lo 9 0 s :=
    ⟨hs, hw.symm, hc, hp, by simpa using hwin, by omega, by omega⟩
  have h₁ := h₀.sample
  have h₂ := h₁.sample
  refine ⟨_, _, _, h₀.runs, h₁.runs, h₂.runs, (h₀.active_iff (by decide)).mpr ?_,
    (h₁.active_iff (by decide)).mpr ?_, Bool.eq_false_iff.mpr (mt (h₂.active_iff (by decide)).mp ?_)⟩
  all_goals
    simp only [effect_cfg, hw, hdelta]
    decide

/-! ### The z-score detector -/

/-- Settles O38: the row runs (`exec_enabled`), and its effect is the append with the flag cleared. -/
theorem primingSampleIsInactive : Obligations.PrimingSampleIsInactive :=
  fun _ _ x hs hlen hc hp => exec_enabled (i := .sampleZPrime _ x) ⟨primingRow_iff.mpr ⟨hs, hlen⟩, hc, hp⟩

/-- The z-score decision, in the words of 40_classifier.md R88 and R89. -/
theorem zActive_iff (cfg : Config) (window : List Rat) (y : Rat) :
    zActive cfg window y = true ↔
      cfg.zThreshold ^ 2 * ((window.map fun v => (v - mean window) ^ 2).sum / window.length)
        < (y - mean window) ^ 2 := by
  rw [zActive, popvar, decide_eq_true_iff]
  simp only [sq]

/-- What enters the window: the blend with the newest entry if the sample is active, and otherwise the value. -/
theorem blend_eq {cfg : Config} {window : List Rat} {newest : Rat} (sig : Bool) (y : Rat)
    (h : window.getLast? = some newest) :
    blend cfg sig y window = if sig then cfg.zInfluence * y + (1 - cfg.zInfluence) * newest else y := by
  simp [blend, List.getLastD_eq_getLast?, h]

/-- Settles O39: the row runs (`exec_enabled`), the flag is the test of R88 (`zActive_iff`), and what enters is
the blend of R90 (`blend_eq`). -/
theorem scoredSampleTestsThenBlends : Obligations.ScoredSampleTestsThenBlends := by
  rintro s c x w newest mean var y hs rfl hlen hnewest hc hp rfl rfl rfl
  refine ⟨zActive s.cfg (bankGet s.fwin c) (val16 s.cfg.sampleSigned x), ?_, zActive_iff _ _ _⟩
  rw [← blend_eq _ _ hnewest]
  exact exec_enabled (i := .sampleZ c x) ⟨scoredRow_iff.mpr ⟨hs, hlen⟩, hc, hp⟩

/-! ### An event SAMPLE and its channel -/

/-- Whatever row an event SAMPLE selects, it writes its channel's windows and flag and nothing else. -/
theorem effect_decodeSample (s : State) (c : Index) (x : Raw) (row : SampleRow) :
    ∃ w f flag, effect (decodeSample c x row) s
      = { s with
          win := bankSet s.win c w
          fwin := bankSet s.fwin c f
          active := bankSet s.active c flag } := by
  refine ⟨bankGet (effect (decodeSample c x row) s).win c, bankGet (effect (decodeSample c x row) s).fwin c,
    bankGet (effect (decodeSample c x row) s).active c, ?_⟩
  cases row with
  | rankSpread => simp [decodeSample, effect, sampleRank, State.updateRank, bankSet_self]
  | zPriming => simp [decodeSample, effect, samplePriming, State.updateZ, bankSet_self]
  | zFull => simp [decodeSample, effect, sampleScored, State.updateZ, bankSet_self]

/-- An event SAMPLE on a free channel of the board leaves the effect of the row it selects. -/
theorem runEvent_sample_free {s : State} {c : Index} (x : Raw) (hc : c.val < s.cfg.nChannels.val)
    (hp : s.statusPending = none) :
    runEvent (.internal (.sample c x)) s = .next (effect (decodeSample c x (sampleRow s c)) s) :=
  (runEvent_sample_onChannel s c x).trans (onChannel_free hc hp)

theorem sampleRow_rankSpread {s : State} (h : s.cfg.strategy = .rankSpread) (c : Index) :
    sampleRow s c = .rankSpread := by
  simp [sampleRow, h]

theorem sampleRow_zscore {s : State} (h : s.cfg.strategy = .zscore) (c : Index) :
    sampleRow s c = if (bankGet s.fwin c).length < s.cfg.wZ then .zPriming else .zFull := by
  simp [sampleRow, h]

/-- Settles O40: the row by the strategy and the window's fill (`sampleRow_rankSpread`, `sampleRow_zscore`), and what
any row writes (`effect_decodeSample`). -/
theorem sampleEventWritesItsChannelOnly : Obligations.SampleEventWritesItsChannelOnly := by
  intro s c x
  refine ⟨fun hs => ?_, fun hs => ?_, fun hc hp => ?_⟩
  · rw [runEvent_sample, sampleRow_rankSpread hs]
    rfl
  · rw [runEvent_sample, sampleRow_zscore hs]
    split <;> rfl
  · obtain ⟨w, f, flag, heffect⟩ := effect_decodeSample s c x (sampleRow s c)
    exact ⟨w, f, flag, (runEvent_sample_free x hc hp).trans (congrArg _ heffect)⟩

/-- A sample leaves every other channel's windows and flag. -/
theorem effect_decodeSample_other (s : State) {c d : Index} (x : Raw) (row : SampleRow) (h : d ≠ c) :
    bankGet (effect (decodeSample c x row) s).win d = bankGet s.win d
    ∧ bankGet (effect (decodeSample c x row) s).fwin d = bankGet s.fwin d
    ∧ bankGet (effect (decodeSample c x row) s).active d = bankGet s.active d := by
  obtain ⟨w, f, flag, heffect⟩ := effect_decodeSample s c x row
  rw [heffect]
  exact ⟨bankGet_bankSet_other _ _ h.symm, bankGet_bankSet_other _ _ h.symm, bankGet_bankSet_other _ _ h.symm⟩

/-- What a sample leaves on its channel is a function of the parameters and that channel's windows. -/
theorem effect_decodeSample_congr {s s' : State} {c : Index} (x : Raw) (row : SampleRow) (hcfg : s.cfg = s'.cfg)
    (hwin : bankGet s.win c = bankGet s'.win c) (hfwin : bankGet s.fwin c = bankGet s'.fwin c) :
    bankGet (effect (decodeSample c x row) s').win c = bankGet (effect (decodeSample c x row) s).win c
    ∧ bankGet (effect (decodeSample c x row) s').fwin c = bankGet (effect (decodeSample c x row) s).fwin c
    ∧ bankGet (effect (decodeSample c x row) s').active c = bankGet (effect (decodeSample c x row) s).active c := by
  cases row with
  | rankSpread => simp [decodeSample, effect, sampleRank, hcfg, hwin, hfwin]
  | zPriming => simp [decodeSample, effect, samplePriming, hcfg, hwin, hfwin]
  | zFull => simp [decodeSample, effect, sampleScored, hcfg, hwin, hfwin]

theorem sampleRow_congr {s s' : State} {c : Index} (hcfg : s.cfg = s'.cfg)
    (hfwin : bankGet s.fwin c = bankGet s'.fwin c) : sampleRow s c = sampleRow s' c := by
  simp [sampleRow, hcfg, hfwin]

/-- Settles O42: in both states the event selects one row (`sampleRow_congr`), whose effect on its channel is the same
(`effect_decodeSample_congr`) and on any other none (`effect_decodeSample_other`); CYCLE's byte is a function of the
parameters and the flags. -/
theorem channelsDoNotInterfere : Obligations.ChannelsDoNotInterfere := by
  refine ⟨fun s s' t c x hcfg hpending hwin hfwin hrun => ?_, fun s s' t hcfg hpending hactive hrun => ?_⟩
  · rw [runEvent_sample_onChannel] at hrun
    obtain ⟨hc, hp, rfl⟩ := onChannel_next hrun
    obtain ⟨hw, hf, ha⟩ := effect_decodeSample_congr x (sampleRow s' c) hcfg hwin hfwin
    rw [sampleRow_congr hcfg hfwin]
    exact ⟨_, runEvent_sample_free x (hcfg ▸ hc) (hpending ▸ hp), hw, hf, ha,
      fun d hd => effect_decodeSample_other s' x _ hd⟩
  · obtain ⟨hp, rfl⟩ := exec_next hrun
    refine ⟨_, exec_enabled (i := .cycle) (hpending.symm.trans hp), ?_⟩
    simp [effect, hcfg, hactive]

/-! ### A constant stream -/

/-- Channel c of a well-formed board may take a sample, and its windows hold nothing but x and its value. -/
structure ConstantWindows (c : Index) (x : Raw) (s : State) : Prop where
  board : s.cfg.wf = true
  channel : c.val < s.cfg.nChannels.val
  free : s.statusPending = none
  window : ∀ u ∈ bankGet s.win c, u = x
  zWindow : ∀ v ∈ bankGet s.fwin c, v = (val16 s.cfg.sampleSigned x : Rat)

/-- The constraints of 00_scope.md R5 on the windows. -/
theorem window_bounds_of_wf {cfg : Config} (h : cfg.wf = true) :
    1 ≤ cfg.wRs ∧ cfg.delta ≤ cfg.wRs ∧ 1 ≤ cfg.wZ := by
  simp only [Config.wf, Bool.and_eq_true, decide_eq_true_eq] at h
  tauto

/-- No entry of a constant window is above the sample: the rank test fails. -/
theorem rankSpreadActive_constant {cfg : Config} {window : List Raw} {x : Raw} (hdelta : cfg.delta ≤ cfg.wRs)
    (hw : window ≠ []) (hx : ∀ u ∈ window, u = x) : rankSpreadActive cfg window x = false := by
  have hnone : (window.filter fun e => decide (val16 cfg.sampleSigned x < val16 cfg.sampleSigned e)) = [] :=
    List.filter_eq_nil_iff.mpr fun u hu => by simp [hx u hu]
  rw [Bool.eq_false_iff, Ne, rankSpreadActive_iff x hw, hnone]
  rintro ⟨-, hrank⟩
  simp only [List.length_nil] at hrank
  omega

/-- The mean of a constant window is its value. -/
theorem mean_constant {window : List Rat} {y : Rat} (hw : window ≠ []) (hy : ∀ v ∈ window, v = y) :
    mean window = y := by
  have hlen : (window.length : Rat) ≠ 0 := by simpa using hw
  have hsum : window.sum = window.length * y := by
    rw [List.eq_replicate_of_mem hy]
    simp
  rw [mean, hsum, mul_div_cancel_left₀ y hlen]

/-- The value of a constant window does not deviate from its mean, and no square is below 0: the test fails. -/
theorem zActive_constant {cfg : Config} {window : List Rat} {y : Rat} (hw : window ≠ [])
    (hy : ∀ v ∈ window, v = y) : zActive cfg window y = false := by
  have hvar : (window.map fun v => (v - y) ^ 2).sum = 0 := by
    rw [List.eq_replicate_of_mem hy]
    simp
  rw [Bool.eq_false_iff, Ne, zActive_iff, mean_constant hw hy, hvar]
  simp

/-- A sample equal to the entries keeps the windows constant and its channel inactive. -/
theorem ConstantWindows.sample {c : Index} {x : Raw} {s : State} (h : ConstantWindows c x s) :
    ∃ t, runEvent (.internal (.sample c x)) s = .next t ∧ ConstantWindows c x t
      ∧ bankGet t.active c = false := by
  obtain ⟨hrs, hdelta, hz⟩ := window_bounds_of_wf h.board
  refine ⟨_, runEvent_sample_free x h.channel h.free, ?_⟩
  cases hs : s.cfg.strategy with
  | rankSpread =>
    have hwin := forall_mem_push_eq s.cfg.wRs h.window
    rw [sampleRow_rankSpread hs]
    rw [← effect_sampleRs_win] at hwin
    exact ⟨⟨h.board, h.channel, h.free, hwin, h.zWindow⟩, (effect_sampleRs_active c x s).trans
      (rankSpreadActive_constant hdelta (push_ne_nil _ x hrs) (forall_mem_push_eq _ h.window))⟩
  | zscore =>
    rw [sampleRow_zscore hs]
    split
    · refine ⟨⟨h.board, h.channel, h.free, h.window, ?_⟩, bankGet_bankSet_same _ _ _⟩
      simpa [decodeSample, effect, samplePriming, or_imp, forall_and] using h.zWindow
    · next hfull =>
      have hne : bankGet s.fwin c ≠ [] := List.ne_nil_of_length_pos (by omega)
      have hinactive := zActive_constant (cfg := s.cfg) hne h.zWindow
      refine ⟨⟨h.board, h.channel, h.free, h.window, ?_⟩, (bankGet_bankSet_same _ _ _).trans hinactive⟩
      simpa [decodeSample, effect, sampleScored, hinactive, blend] using
        forall_mem_push_eq s.cfg.wZ h.zWindow

/-- A sample that runs is followed by the rest of the stream. -/
theorem runSamples_cons {c : Index} {x : Raw} {s t : State} (h : runEvent (.internal (.sample c x)) s = .next t)
    (rest : List Raw) : runSamples c (x :: rest) s = runSamples c rest t := by
  simp [runSamples, h, andThen]

/-- A constant stream on constant windows ends inactive. -/
theorem ConstantWindows.runSamples {c : Index} {x : Raw} {s : State} (h : ConstantWindows c x s) (n : Nat) :
    ∃ t, runSamples c (List.replicate (n + 1) x) s = .next t ∧ bankGet t.active c = false := by
  induction n generalizing s with
  | zero =>
    obtain ⟨t, hrun, -, hinactive⟩ := h.sample
    exact ⟨t, runSamples_cons hrun [], hinactive⟩
  | succ n ih =>
    obtain ⟨t, hrun, ht, -⟩ := h.sample
    rw [List.replicate_succ, runSamples_cons hrun]
    exact ih ht

/-- Settles O41: empty windows are constant, every sample of the stream keeps them so and the channel inactive
(`ConstantWindows.sample`). -/
theorem constantStreamIsNeverActive : Obligations.ConstantStreamIsNeverActive :=
  fun _ _ _ n hboard hc hp hwin hfwin =>
    ConstantWindows.runSamples ⟨hboard, hc, hp, by simp [hwin], by simp [hfwin]⟩ n

/-! ### NOSAMPLE and CYCLE -/

/-- Settles O43: NOSAMPLE runs, and its effect is none. -/
theorem missingSampleChangesNothing : Obligations.MissingSampleChangesNothing :=
  fun _ c hc hp => exec_enabled (i := .noSample c) ⟨hc, hp⟩

/-- Settles O44: CYCLE runs, and bit i of the byte it offers is channel i's flag (`bitAt_statusByte`). -/
theorem cycleOffersTheFlagsAsOneByte : Obligations.CycleOffersTheFlagsAsOneByte :=
  fun s hp => ⟨statusByte s.cfg s.active, exec_enabled (i := .cycle) hp, bitAt_statusByte s.cfg s.active⟩

end Sys2Proof.Machine

/-! ## Facts for the family of the bus events: when they run, the frame of a write, what a step runs -/

namespace Sys2Proof.Machine

/-! ### A bus instruction while the bridge is up, and while it is down -/

theorem exec_bus_up {i : Instr} {s : State} (hb : isBus i = true) (hup : s.bridgeUp = true) :
    exec i s = .next (effect i s) :=
  exec_enabled ((enabled_iff_bridgeUp_of_bus hb).mpr hup)

theorem exec_bus_down {i : Instr} {s : State} (hb : isBus i = true) (hdown : s.bridgeUp = false) :
    exec i s = .fault .bridgeDown := by
  cases i with
  | sampleRs c x | sampleZPrime c x | sampleZ c x | noSample c | cycle | status b | pop | busErr | restart =>
    cases hb
  | _ => exact onBus_down hdown

theorem step_deliver_down {s : State} {e : BusEvent} {rest : List Input} (hin : s.inputs = .deliver e :: rest)
    (hdown : s.bridgeUp = false) : step s = .fault .bridgeDown := by
  simp [step, fetch, hin, handOver, hdown]

/-- Settles O10: an instruction stops at its guard (`exec_bus_down`), a delivered event at the hand-over
(`step_deliver_down`). -/
theorem busEventsStopWhileTheBridgeIsDown : Obligations.BusEventsStopWhileTheBridgeIsDown :=
  ⟨fun _ _ hdown hb => exec_bus_down hb hdown, fun _ _ _ hdown hin => step_deliver_down hin hdown⟩

/-- Settles O11: an event of the alphabet decodes (`exists_decode`), to an instruction that encodes to it and so is a
bus instruction, which runs (`exec_bus_up`). -/
theorem everyBusEventRunsWhileTheBridgeIsUp : Obligations.EveryBusEventRunsWhileTheBridgeIsUp := by
  intro s x e hup hlen
  have hshort : ∀ payload, Event.bus e = .bus (.receive payload) → payload.length ≤ 2 := by
    rintro payload ⟨⟩
    exact hlen
  obtain ⟨i, hdec⟩ := exists_decode x hshort
  exact ⟨i, effect i s, hdec, exec_bus_up (isBus_of_encode (encode_of_decode hdec)) hup⟩

/-! ### The events without a register row -/

/-- Settles O8: RECV and FIN run, and their effect is none. -/
theorem emptyReceiveAndFinishChangeNothing : Obligations.EmptyReceiveAndFinishChangeNothing :=
  fun _ hup => ⟨exec_bus_up (i := .recv) rfl hup, exec_bus_up (i := .fin) rfl hup⟩

/-- Settles O9: SETADDR runs, and its effect is the latch. -/
theorem addressReceiveLatchesTheAddress : Obligations.AddressReceiveLatchesTheAddress :=
  fun _ a hup => exec_bus_up (i := .setAddr a) rfl hup

/-! ### The reply to a Request -/

/-- Settles O16: the effect of the row that the pointer selects (`effect_decodeRead`). -/
theorem requestRepliesTheReadViewAtThePointer : Obligations.RequestRepliesTheReadViewAtThePointer :=
  fun s hup => (exec_decodeRead s.curAddr hup).trans (congrArg _ (effect_decodeRead s.curAddr s))

theorem hostByte_of_reply {s : State} {r : Nat} {bytes : List Byte} (h : s.replies[r]? = some bytes) (k : Nat) :
    hostByte s r k = some (bytes[k]?.getD (Config.freePadding r k)) := by
  simp [hostByte, h]

/-- Settles O19: position k of the reply holds a byte or lies beyond its end (`hostByte_of_reply`). -/
theorem clockedBytesAreTheReplysOwn : Obligations.ClockedBytesAreTheReplysOwn := by
  intro s r k bytes hreply
  rw [hostByte_of_reply hreply]
  refine ⟨fun v hbyte => ?_, fun hbeyond => ?_⟩
  · rw [hbyte, Option.getD_some]
  · rw [List.getElem?_eq_none hbeyond, Option.getD_none]

/-! ### The frame of a two-byte Receive -/

/-- A Receive is not replied to. -/
theorem effect_replies_of_receive {i : Instr} {payload : List Byte} (s : State)
    (h : encode i = .bus (.receive payload)) : (effect i s).replies = s.replies := by
  cases i with
  | rdVerMajor | rdVerMinor | rdVerPatch | rdNchan | rdNout | rdSticky | rdUnknown a => cases h
  | sampleRs c x | sampleZPrime c x | sampleZ c x => cases h
  | _ => simp [effect]

/-- Settles O25: what a bus event can change (`effect_of_bus`), of which a write leaves sticky and the replies, and
latches its address. -/
theorem twoByteReceiveLatchesAndWritesOnlyActuators :
    Obligations.TwoByteReceiveLatchesAndWritesOnlyActuators := by
  intro s a v hup
  have henc : encode (decodeWrite a v) = .bus (.receive [a, v]) := encode_decodeWrite a v
  have hb : isBus (decodeWrite a v) = true := isBus_of_encode henc
  have hframe := effect_of_bus s hb
  rw [effect_curAddr_of_bus s henc, effect_sticky_of_receive s henc, effect_replies_of_receive s henc] at hframe
  exact ⟨effect (decodeWrite a v) s, exec_bus_up hb hup, hframe⟩

/-! ### What a step runs -/

theorem runEvent_of_decode {e : Event} {s : State} {i : Instr} (hdec : decode (contextOf s e) e = .ok i) :
    runEvent e s = exec i s := by
  simp [runEvent, hdec]

/-- An event that was handed over runs its instruction at the attached address; the pointer stays. -/
theorem runHanded_of_decode {h : Handed} {s : State} {i : Instr}
    (hdec : decode (contextOf (s.latch h.address) (.bus h.event)) (.bus h.event) = .ok i) :
    runHanded h s = keepPointer s.curAddr (exec i (s.latch h.address)) :=
  congrArg (keepPointer s.curAddr) (runEvent_of_decode hdec)

theorem step_internal {s : State} {e : InternalEvent} {rest : List Input} (hin : s.inputs = .internal e :: rest) :
    step s = runEvent (.internal e) { s with inputs := rest } := by
  simp [step, fetch, hin]

/-- Settles O5: the decode stage's turn runs the instruction and keeps the pointer (`step_decodeStage`,
`runHanded_of_decode`), an internal event runs its own (`step_internal`); neither context reads the turn used up. -/
theorem stepRunsDecodedInstruction : Obligations.StepRunsDecodedInstruction := by
  refine ⟨fun s h chan rest i hin hchan hdec _ => ?_, fun s e rest i hin hdec _ => ?_⟩
  · have hstep : step s = keepPointer s.curAddr
        (exec i { s with inputs := rest, busChan := chan, curAddr := h.address }) :=
      (step_decodeStage hin hchan).trans (runHanded_of_decode hdec)
    exact ⟨fun t hx => hstep.trans (congrArg _ hx), fun r hx => hstep.trans (congrArg _ hx)⟩
  · exact (step_internal hin).trans (runEvent_of_decode hdec)

end Sys2Proof.Machine

/-! ## Facts for the family of the read registers: sticky between two reads, the constant registers, the sentinel -/

namespace Sys2Proof.Machine

/-! ### Sticky after a read of 0x10 -/

/-- The latest raw status is `raw`, and sticky holds it and nothing more: what a read of 0x10 leaves
(42_register_reads.md R131, R133). -/
def StickySettled (raw : Byte) (s : State) : Prop := s.sticky = raw ∧ s.lastRaw = raw

theorem stickySettled_effect_rdSticky (s : State) : StickySettled s.lastRaw (effect .rdSticky s) := ⟨rfl, rfl⟩

/-- Only STATUS unsettles sticky: another read of 0x10 settles it to the same byte, CYCLE offers a byte without
accepting it, and no other instruction writes the status bytes. -/
theorem StickySettled.effect {raw : Byte} {s : State} (h : StickySettled raw s) {i : Instr}
    (hi : ∀ b, i ≠ .status b) : StickySettled raw (effect i s) := by
  cases i with
  | status b => exact absurd rfl (hi b)
  | rdSticky => exact ⟨h.2, h.2⟩
  | cycle => exact h
  | _ =>
    have hview := effect_statusView s (by simp) (by simp) hi
    exact ⟨(congrArg (fun v => v.2.1) hview).trans h.1, (congrArg (fun v => v.2.2.1) hview).trans h.2⟩

/-- A run without STATUS keeps sticky settled. -/
theorem runInstrs_stickySettled {raw : Byte} {is : List Instr} {s t : State} (hrun : runInstrs is s = .next t)
    (hno : ∀ b, .status b ∉ is) (h : StickySettled raw s) : StickySettled raw t := by
  induction is generalizing s with
  | nil => cases hrun; exact h
  | cons i rest ih =>
    obtain ⟨u, hx, hrest⟩ := andThen_next hrun
    obtain ⟨-, rfl⟩ := exec_next hx
    have hi : ∀ b, i ≠ .status b := fun b hb => hno b (hb ▸ List.mem_cons_self)
    exact ih hrest (fun b hb => hno b (List.mem_cons_of_mem i hb)) (h.effect hi)

/-- A read of 0x10 replies sticky, then settles it (42_register_reads.md R131). -/
theorem exec_rdSticky {s : State} (hup : s.bridgeUp = true) :
    exec .rdSticky s = .next { s with replies := s.replies ++ [[s.sticky]], sticky := s.lastRaw } :=
  exec_bus_up (i := .rdSticky) rfl hup

/-- Settles O18: the first read settles sticky to the latest raw status, a run without STATUS keeps it so, by
induction on the run (`runInstrs_stickySettled`), and the second read replies it. -/
theorem secondStickyReadRepliesTheLiveStatus : Obligations.SecondStickyReadRepliesTheLiveStatus := by
  intro s t u between hread hrun hno hup
  obtain ⟨-, rfl⟩ := exec_next hread
  obtain ⟨hsticky, hraw⟩ := runInstrs_stickySettled hrun hno (stickySettled_effect_rdSticky s)
  refine ⟨hraw, ?_⟩
  rw [exec_rdSticky hup, hsticky, hraw]

/-- Settles O14: the read (`exec_rdSticky`), and the clause of the invariant on sticky. -/
theorem stickyReadRepliesThenSettles : Obligations.StickyReadRepliesThenSettles :=
  fun _ => ⟨exec_rdSticky, fun hinv => hinv.status.sticky_channels⟩

/-! ### The constant registers -/

/-- Away from the sticky register the read view depends on the parameters alone. -/
theorem readView_congr_of_ne_sticky {s t : State} {a : Byte} (hcfg : t.cfg = s.cfg) (ha : a ≠ 0x10) :
    readView t a = readView s a := by
  simp only [readView, hcfg, ha, if_false]

/-- Settles O12: the five reads are bus instructions and run (`exec_bus_up`); no step writes a parameter (O55), and
0x10 is not among their addresses. -/
theorem constantRegistersReplyTheirParameter : Obligations.ConstantRegistersReplyTheirParameter := by
  refine fun s => ⟨fun hup => ?_, fun t a hstep ha => ?_⟩
  · exact ⟨exec_bus_up (i := .rdVerMajor) rfl hup, exec_bus_up (i := .rdVerMinor) rfl hup,
      exec_bus_up (i := .rdVerPatch) rfl hup, exec_bus_up (i := .rdNchan) rfl hup,
      exec_bus_up (i := .rdNout) rfl hup⟩
  · have h10 : a ≠ 0x10 := by rintro rfl; exact absurd ha (by decide)
    exact readView_congr_of_ne_sticky (noStepWritesAParameter s t hstep) h10

/-- Settles O13: at most 8 channels and 64 outputs, so neither count wraps in its byte. -/
theorem countRegistersFitTheirByte : Obligations.CountRegistersFitTheirByte := by
  intro s
  have hchannels : s.cfg.nChannels.val < 2 ^ 8 := by omega
  have houtputs : 8 * s.cfg.nExpanders.val < 2 ^ 8 := by omega
  exact ⟨congrArg (fun n => [n]) (Nat.mod_eq_of_lt hchannels), congrArg (fun n => [n]) (Nat.mod_eq_of_lt houtputs)⟩

/-! ### The addresses with no R row -/

/-- The addresses without an R row, as ranges (42_register_reads.md R132). -/
theorem hasReadRow_eq_false_iff (a : Byte) :
    hasReadRow a = false ↔ (0x05 ≤ a.toNat ∧ a.toNat ≤ 0x0F) ∨ 0x11 ≤ a.toNat := by
  simp only [hasReadRow, Bool.or_eq_false_iff, decide_eq_false_iff_not]
  omega

/-- Settles O15: at an address without an R row the decoder takes its default case, whose instruction runs. -/
theorem unknownAddressReadsTheSentinel : Obligations.UnknownAddressReadsTheSentinel :=
  fun _ a hup hrange => ⟨decodeRead_of_noRow ((hasReadRow_eq_false_iff a).mpr hrange),
    exec_bus_up (i := .rdUnknown a) rfl hup⟩

end Sys2Proof.Machine

/-! ## Facts for the family of the register writes: the pins, the expander and PWM registers, the unknown addresses -/

namespace Sys2Proof.Machine

/-! ### Register 0x20 and the levels of the pins -/

/-- Settles O20: the effect of WR_LOCAL, and its levels bit by bit (`bitAt_localLevels`, `honoured_iff`). -/
theorem localWriteDrivesTheHonouredPins : Obligations.LocalWriteDrivesTheHonouredPins := by
  intro s v hup
  refine ⟨localLevels s.cfg s.pwmMode s.pinLevel v, exec_bus_up (i := .wrLocal v) rfl hup, fun i => ?_⟩
  have hbit := bitAt_localLevels s.cfg s.pwmMode s.pinLevel v i
  simp only [honoured_iff] at hbit
  exact hbit

/-- Only a write to 0x20 writes the levels. -/
theorem effect_pinLevel {i : Instr} (s : State) (hl : ∀ v, i ≠ .wrLocal v) :
    (effect i s).pinLevel = s.pinLevel := by
  cases hp : pwmPin i with
  | none => exact congrArg (fun view => view.2.2.2) (effect_pinView s hl hp)
  | some n =>
    obtain ⟨v, rfl⟩ := wrPwm_of_pwmPin hp
    rw [effect_wrPwm, writePwm_pinLevel, State.latch_pinLevel]

/-- No instruction moves the level of a pin whose bit of register 0x20 is not honoured: WR_LOCAL leaves it, and no
other instruction writes the levels. -/
theorem effect_level_of_not_honoured {n : Index} (i : Instr) {s : State}
    (h : honoured s.cfg s.pwmMode n = false) : bitAt (effect i s).pinLevel n = bitAt s.pinLevel n := by
  by_cases hl : ∃ v, i = .wrLocal v
  · obtain ⟨v, rfl⟩ := hl
    exact (bitAt_localLevels s.cfg s.pwmMode s.pinLevel v n).trans (by rw [h]; rfl)
  · rw [effect_pinLevel s (not_exists.mp hl)]

/-- The two causes for which a pin is not honoured (43_register_writes.md R142). -/
theorem not_honoured_of_pwm_or_strap {s : State} {n : Index}
    (h : bankGet s.pwmMode n = true ∨ (n = 0 ∧ s.cfg.altAddress = true)) :
    honoured s.cfg s.pwmMode n = false := by
  rcases h with hmode | ⟨rfl, halt⟩
  · simp [honoured, hmode]
  · simp [honoured, halt]

/-- Settles O32: a hand-over does not touch the pins, and an instruction does not move a pin that is not honoured,
whichever kind of step runs it. -/
theorem noStepMovesAnUnhonouredPin : Obligations.NoStepMovesAnUnhonouredPin := by
  intro s t n hstep hpin
  have hoff : honoured s.cfg s.pwmMode n = false := not_honoured_of_pwm_or_strap hpin
  rcases step_cases hstep with ⟨-, rfl⟩ | ⟨e, rest, -, -, -, -, rfl⟩ | ⟨rest, -, -, rfl⟩
    | ⟨e, chan, left, i, u, -, -, -, hx, rfl⟩ | ⟨e, rest, i, -, -, hx⟩
  · rfl
  · rfl
  · rfl
  · obtain ⟨-, rfl⟩ := exec_next hx
    exact effect_level_of_not_honoured i hoff
  · obtain ⟨-, rfl⟩ := exec_next hx
    exact effect_level_of_not_honoured i hoff

/-! ### The PWM target -/

theorem pwmTarget_lt_periodTop {cfg : Config} (d : Byte) (h : 0 < cfg.periodTop) :
    pwmTarget cfg d < cfg.periodTop :=
  Nat.div_lt_of_lt_mul (by rw [Nat.mul_comm]; exact Nat.mul_lt_mul_of_pos_right d.isLt h)

theorem pwmTarget_mono (cfg : Config) {d e : Byte} (h : d.toNat ≤ e.toNat) :
    pwmTarget cfg d ≤ pwmTarget cfg e :=
  Nat.div_le_div_right (Nat.mul_le_mul_left cfg.periodTop h)

/-- Settles O28: the bounds of a quotient by 256, and a duty below 256. -/
theorem pwmTargetIsTheFlooredFraction : Obligations.PwmTargetIsTheFlooredFraction := by
  intro cfg d hpos
  refine ⟨Nat.mul_div_le _ 256, Nat.lt_mul_div_succ _ (by decide), ?_, pwmTarget_lt_periodTop d hpos,
    fun e hle => pwmTarget_mono cfg hle⟩
  rintro rfl
  simp [pwmTarget]

/-! ### The expander registers -/

theorem isBus_wrExp (n : Index) (v : Byte) : isBus (wrExp n v) = true := by
  fin_cases n <;> rfl

theorem effect_wrExp (n : Index) (v : Byte) (s : State) :
    effect (wrExp n v) s = (s.latch (expAddress n)).emitOutput ⟨n, v⟩ := by
  fin_cases n <;> rfl

/-- A write to an expander register latches its address and sends (43_register_writes.md R143). -/
theorem exec_wrExp {s : State} (n : Index) (v : Byte) (hup : s.bridgeUp = true) :
    exec (wrExp n v) s = .next ((s.latch (expAddress n)).emitOutput ⟨n, v⟩) :=
  (exec_bus_up (isBus_wrExp n v) hup).trans (congrArg _ (effect_wrExp n v s))

/-- Settles O21: a send to a queue with room appends (`emitOutput_room`); the latch does not touch the queue. -/
theorem expanderWriteEnqueuesWhenThereIsRoom : Obligations.ExpanderWriteEnqueuesWhenThereIsRoom := by
  intro s n v hup hroom
  have hsend : (s.latch (expAddress n)).emitOutput ⟨n, v⟩ = (s.latch (expAddress n)).enqueue ⟨n, v⟩ :=
    emitOutput_room hroom
  exact (exec_wrExp n v hup).trans (congrArg _ hsend)

/-! ### The PWM registers -/

/-- A write to a PWM register latches its address and writes the pin (43_register_writes.md R144). -/
theorem exec_wrPwm {s : State} (n : Index) (v : Byte) (hup : s.bridgeUp = true) :
    exec (wrPwm n v) s = .next ((s.latch (pwmAddress n)).writePwm n v) :=
  (exec_bus_up (isBus_wrPwm n v) hup).trans (congrArg _ (effect_wrPwm n v s))

theorem exec_wrPwm_honoured {s : State} {n : Index} (v : Byte) (hup : s.bridgeUp = true)
    (hon : pwmHonoured s.cfg n = true) :
    exec (wrPwm n v) s = .next ((s.latch (pwmAddress n)).enterPwm n v) :=
  (exec_wrPwm n v hup).trans (congrArg _ (if_pos hon))

theorem exec_wrPwm_not_honoured {s : State} {n : Index} (v : Byte) (hup : s.bridgeUp = true)
    (hoff : ¬ pwmHonoured s.cfg n = true) : exec (wrPwm n v) s = .next (s.latch (pwmAddress n)) :=
  (exec_wrPwm n v hup).trans (congrArg _ (if_neg hoff))

/-- Settles O23: on a board with the row the write is honoured except on the strap pin (`pwmHonoured_iff`). -/
theorem pwmWriteSetsModeAndDuty : Obligations.PwmWriteSetsModeAndDuty := by
  intro s n v hup hrow
  refine ⟨fun hpin => ?_, fun hstrap => ?_⟩
  · exact exec_wrPwm_honoured v hup ((pwmHonoured_iff s.cfg n).mpr ⟨hrow, hpin⟩)
  · exact exec_wrPwm_not_honoured v hup fun hon => ((pwmHonoured_iff s.cfg n).mp hon).2 hstrap

/-! ### The addresses with no W row -/

/-- The addresses without a W row, as ranges (43_register_writes.md R147). -/
theorem hasWriteRow_eq_false_iff (a : Byte) :
    hasWriteRow a = false
      ↔ a.toNat ≤ 0x1F ∨ (0x29 ≤ a.toNat ∧ a.toNat ≤ 0x2F) ∨ 0x38 ≤ a.toNat := by
  simp only [hasWriteRow, Bool.or_eq_false_iff, Bool.and_eq_false_iff, decide_eq_false_iff_not]
  omega

/-- Settles O24: at an address without a W row the decoder takes its default case, whose instruction latches; a write
to a PWM register the board does not have is not honoured. -/
theorem unknownWriteOnlyLatchesTheAddress : Obligations.UnknownWriteOnlyLatchesTheAddress := by
  refine ⟨fun s a v hup hrange => ?_, fun s n v hup hrow => ?_⟩
  · exact ⟨decodeWrite_of_noRow v ((hasWriteRow_eq_false_iff a).mpr hrange),
      exec_bus_up (i := .wrIgnored a v) rfl hup⟩
  · exact exec_wrPwm_not_honoured v hup fun hon =>
      ne_true_of_eq_false hrow ((pwmHonoured_iff s.cfg n).mp hon).1

end Sys2Proof.Machine

/-! ## Facts for the family of the status update and the output queue: the hand-over of a byte, POP, a full queue -/

namespace Sys2Proof.Machine

/-! ### The status handoff -/

theorem onChannel_held {c : Index} {s t : State} {b : Byte} (hc : c.val < s.cfg.nChannels.val)
    (h : s.statusPending = some b) : onChannel c s t = .fault .classifierHeld :=
  (if_pos hc).trans (onClassifier_held h)

/-- The classifier side runs only while no status byte is pending (44_status_and_output.md R160). -/
theorem statusPending_of_enabled_classifier {i : Instr} {s : State} (hi : isClassifier i = true)
    (h : enabled i s) : s.statusPending = none := by
  cases i with
  | sampleRs c x | sampleZPrime c x | sampleZ c x =>
    obtain ⟨-, -, hfree⟩ := h
    exact hfree
  | noSample c => exact h.2
  | cycle => exact h
  | _ => cases hi

/-- Settles O45: the guards of CYCLE and of a channel answer the stop (`onClassifier_held`, `onChannel_held`), which an
event SAMPLE meets too (`runEvent_sample_onChannel`); and no instruction of the classifier side is enabled. -/
theorem classifierIsHeldUntilTheByteIsAccepted : Obligations.ClassifierIsHeldUntilTheByteIsAccepted := by
  intro s b hpending
  refine ⟨onClassifier_held hpending, fun c hc => ⟨onChannel_held hc hpending, fun x => ?_⟩, fun i t hi hx => ?_⟩
  · exact (runEvent_sample_onChannel s c x).trans (onChannel_held hc hpending)
  · obtain ⟨hrun, -⟩ := exec_next hx
    have hfree : s.statusPending = none := statusPending_of_enabled_classifier hi hrun
    cases hpending.symm.trans hfree

/-- Settles O46: STATUS is enabled by its own byte alone, and its effect is the acceptance. -/
theorem statusAccumulatesIntoSticky : Obligations.StatusAccumulatesIntoSticky :=
  fun _ b => ⟨fun hpending => exec_enabled (i := .status b) hpending, fun hother => if_neg hother⟩

/-! ### The dispatcher -/

/-- POP takes the head of the queue and writes its expander (44_status_and_output.md R165, R166). -/
theorem exec_pop_cons {s : State} {r : OutputRequest} {rest : List OutputRequest} (h : s.outQueue = r :: rest) :
    exec .pop s = .next { s with outQueue := rest, expOut := expanderWrite s.cfg s.expOut r } := by
  have hq : s.outQueue ≠ [] := h ▸ List.cons_ne_nil r rest
  exact (exec_enabled (i := .pop) hq).trans (congrArg _ (popHead_cons h))

theorem exec_pop_nil {s : State} (h : s.outQueue = []) : exec .pop s = .fault .popEmptyQueue :=
  if_pos (List.isEmpty_iff.mpr h)

/-- Settles O48: the two cases of the queue (`exec_pop_cons`, `exec_pop_nil`). -/
theorem popDeliversTheHeadOfTheQueue : Obligations.PopDeliversTheHeadOfTheQueue :=
  fun _ => ⟨fun _ _ hq => exec_pop_cons hq, exec_pop_nil⟩

/-- What the expanders hold after a list of requests was delivered, oldest first. -/
def deliverAll (cfg : Config) (out : Bank Byte) (rs : List OutputRequest) : Bank Byte :=
  rs.foldl (expanderWrite cfg) out

/-- k POPs deliver the first k requests, oldest first, and leave the rest of the queue. -/
theorem runInstrs_pops {k : Nat} {s : State} (hk : k ≤ s.outQueue.length) :
    runInstrs (List.replicate k .pop) s
      = .next { s with
          outQueue := s.outQueue.drop k
          expOut := deliverAll s.cfg s.expOut (s.outQueue.take k) } := by
  induction k generalizing s with
  | zero => rfl
  | succ k ih =>
    cases hq : s.outQueue with
    | nil => simp [hq] at hk
    | cons r rest =>
      have hrest : k ≤ rest.length := by simpa [hq] using hk
      calc runInstrs (List.replicate (k + 1) .pop) s
          = andThen (exec .pop s) (runInstrs (List.replicate k .pop)) := rfl
        _ = runInstrs (List.replicate k .pop)
              { s with outQueue := rest, expOut := expanderWrite s.cfg s.expOut r } := by
            rw [exec_pop_cons hq]; rfl
        _ = _ := ih hrest

/-- An expander of the board holds the value of the last request delivered to it, and what it held before if there
was none; by induction from the end of the list, where the last request stands. -/
theorem bankGet_deliverAll (cfg : Config) (out : Bank Byte) (rs : List OutputRequest) (d : Index) :
    bankGet (deliverAll cfg out rs) d
      = if d.val < cfg.nExpanders.val then
          (((rs.filter fun r => decide (r.device = d)).getLast?).map (·.value)).getD (bankGet out d)
        else bankGet out d := by
  induction rs using List.reverseRecOn with
  | nil => simp [deliverAll]
  | append_singleton rs r ih =>
    have hlast : deliverAll cfg out (rs ++ [r]) = expanderWrite cfg (deliverAll cfg out rs) r :=
      List.foldl_concat ..
    rw [hlast, expanderWrite_get, ih]
    by_cases hd : r.device = d
    · by_cases hboard : d.val < cfg.nExpanders.val
      · simp [hd, hboard]
      · simp [hboard]
    · simp [hd]

/-- Settles O49: k POPs deliver the first k requests (`runInstrs_pops`), of which each expander holds its last
(`bankGet_deliverAll`). -/
theorem popsDeliverInOrder : Obligations.PopsDeliverInOrder :=
  fun k s hk => ⟨deliverAll s.cfg s.expOut (s.outQueue.take k), runInstrs_pops hk,
    bankGet_deliverAll s.cfg s.expOut (s.outQueue.take k)⟩

/-! ### A send to a full queue -/

/-- Settles O22: the write latches, then sends (`exec_wrExp`), and a send to a full queue takes the free choice
(`emitOutput_full`); the latch touches neither the queue nor the choice. -/
theorem fullQueueSendWaitsOrDrops : Obligations.FullQueueSendWaitsOrDrops := by
  intro s n v r rest hup hq hfull
  have hsend : (s.latch (expAddress n)).emitOutput ⟨n, v⟩
      = if Config.freeSendWaits s.draws then ((s.latch (expAddress n)).popHead.enqueue ⟨n, v⟩).drawn
        else (s.latch (expAddress n)).drawn :=
    emitOutput_full (not_lt.mpr hfull)
  have hexec := (exec_wrExp n v hup).trans (congrArg _ hsend)
  refine ⟨fun hwaits => ?_, fun hdrops => ?_⟩
  · rw [hexec, if_pos hwaits, popHead_cons (s := s.latch (expAddress n)) hq]
    rfl
  · rw [hexec, if_neg (ne_true_of_eq_false hdrops)]
    rfl

end Sys2Proof.Machine

/-! ## The family of the exceptions: the bus service error and the restart -/

namespace Sys2Proof.Machine

/-- BUSERR takes a listening bridge down; the events handed over but not handled are lost
(60_exceptions.md R180). -/
theorem exec_busErr_of_up {s : State} (h : s.bridgeUp = true) : exec .busErr s = .next s.raiseBusError :=
  exec_enabled (i := .busErr) h

theorem exec_busErr_of_down {s : State} (h : s.bridgeUp = false) : exec .busErr s = .fault .busErrWhileDown :=
  if_neg (ne_true_of_eq_false h)

/-- RESTART makes a bridge that is down listen, with the draw's free value in `cur_addr`; the draw is used up
(60_exceptions.md R181). -/
theorem exec_restart_of_down {s : State} (h : s.bridgeUp = false) :
    exec .restart s = .next (s.restartBridge (Config.freePointer s.draws)).drawn :=
  exec_enabled (i := .restart) h

theorem exec_restart_of_up {s : State} (h : s.bridgeUp = true) : exec .restart s = .fault .restartWhileUp :=
  if_pos h

/-- Settles O50: the bridge is up or down (`exec_busErr_of_up`, `exec_busErr_of_down`), and the entry of the bus
error writes the two fields named. -/
theorem busErrorTakesTheBridgeDown : Obligations.BusErrorTakesTheBridgeDown :=
  fun _ => ⟨exec_busErr_of_up, exec_busErr_of_down⟩

/-- Settles O51: the bridge is down or up (`exec_restart_of_down`, `exec_restart_of_up`), and the restart writes
the three fields named and uses up one draw. -/
theorem restartListensWithAFreePointer : Obligations.RestartListensWithAFreePointer :=
  fun _ => ⟨exec_restart_of_down, exec_restart_of_up⟩

end Sys2Proof.Machine

/-! ## The family of reset and hazards: PWM mode is one-way -/

namespace Sys2Proof.Machine

/-- No instruction clears a PWM mode flag (70_reset_and_hazards.md R215): one direction of O30's equivalence. -/
theorem exec_keeps_pwmMode {i : Instr} {s t : State} {n : Index} (hx : exec i s = .next t)
    (hmode : bankGet s.pwmMode n = true) : bankGet t.pwmMode n = true :=
  (pwmModeIsSetOnlyByItsOwnRegister s t i n hx).mpr (.inl hmode)

/-- Settles O31: a hand-over, an idle turn and the latches around an instruction do not touch the modes, and the
instruction that a step runs clears none (`exec_keeps_pwmMode`). -/
theorem noStepLeavesPwmMode : Obligations.NoStepLeavesPwmMode := by
  intro s t n hstep hmode
  rcases step_cases hstep with ⟨-, rfl⟩ | ⟨e, rest, -, -, -, -, rfl⟩ | ⟨rest, -, -, rfl⟩
    | ⟨e, chan, left, i, u, -, -, -, hx, rfl⟩ | ⟨e, rest, i, -, -, hx⟩
  · exact hmode
  · exact hmode
  · exact hmode
  · exact exec_keeps_pwmMode (t := u) hx hmode
  · exact exec_keeps_pwmMode hx hmode

end Sys2Proof.Machine
